-- ==== Sys2Proof/Word.lean ====
section
/-! DEFINITION. The widths of the machine's values (R15 of 00_scope.md: every value is an unsigned integer). -/

namespace Sys2Proof

/-- An 8-bit value: V0-VF, DT, ST, a byte of memory, an immediate `nn` (R6, R15, R95). -/
abbrev Byte := BitVec 8

/-- A 16-bit value: I, PC, a stack entry, an opcode (R6, R7, R93). -/
abbrev Word := BitVec 16

/-- The 12-bit address field `nnn` (R95). -/
abbrev Addr12 := BitVec 12

/-- A 4-bit register number, selecting one of V0-VF (R21, R95). -/
abbrev Reg := Fin 16

/-- A logical key, 0-F (R30). -/
abbrev Key := Fin 16

end Sys2Proof
end

