-- ==== Sys2Proof/Syntax.lean ====
section
/-! DEFINITION. The instructions, one constructor for each row of the opcode map (R96 of 30_encoding.md). -/

namespace Sys2Proof

/-- The 34 instructions (R96). `x` and `y` are register numbers, `n` a row count, `nn` an immediate byte,
`nnn` an address (R95). The types admit exactly the values the fields of R94 can hold. -/
inductive Instr where
  /-- 00E0, R120 -/
  | cls
  /-- 00EE, R140 -/
  | ret
  /-- 1NNN, R142 -/
  | jp (nnn : Addr12)
  /-- 2NNN, R143 -/
  | call (nnn : Addr12)
  /-- 3XNN, R145 -/
  | seVxNn (x : Reg) (nn : Byte)
  /-- 4XNN, R146 -/
  | sneVxNn (x : Reg) (nn : Byte)
  /-- 5XY0, R147 -/
  | seVxVy (x y : Reg)
  /-- 6XNN, R170 -/
  | ldVxNn (x : Reg) (nn : Byte)
  /-- 7XNN, R171 -/
  | addVxNn (x : Reg) (nn : Byte)
  /-- 8XY0, R172 -/
  | ldVxVy (x y : Reg)
  /-- 8XY1, R173 -/
  | orVxVy (x y : Reg)
  /-- 8XY2, R174 -/
  | andVxVy (x y : Reg)
  /-- 8XY3, R175 -/
  | xorVxVy (x y : Reg)
  /-- 8XY4, R176 -/
  | addVxVy (x y : Reg)
  /-- 8XY5, R177 -/
  | sub (x y : Reg)
  /-- 8XY6, R178 -/
  | shr (x y : Reg)
  /-- 8XY7, R179 -/
  | subn (x y : Reg)
  /-- 8XYE, R180 -/
  | shl (x y : Reg)
  /-- 9XY0, R148 -/
  | sneVxVy (x y : Reg)
  /-- ANNN, R210 -/
  | ldINnn (nnn : Addr12)
  /-- BNNN, R149 -/
  | jpV0 (nnn : Addr12)
  /-- CXNN, R182 -/
  | rnd (x : Reg) (nn : Byte)
  /-- DXYN, R121 -/
  | drw (x y : Reg) (n : Fin 16)
  /-- EX9E, R240 -/
  | skp (x : Reg)
  /-- EXA1, R241 -/
  | sknp (x : Reg)
  /-- FX07, R242 -/
  | ldVxDt (x : Reg)
  /-- FX0A, R245 -/
  | ldVxK (x : Reg)
  /-- FX15, R247 -/
  | ldDtVx (x : Reg)
  /-- FX18, R248 -/
  | ldStVx (x : Reg)
  /-- FX1E, R211 -/
  | addIVx (x : Reg)
  /-- FX29, R212 -/
  | ldFVx (x : Reg)
  /-- FX33, R213 -/
  | ldBVx (x : Reg)
  /-- FX55, R214 -/
  | ldMemVx (x : Reg)
  /-- FX65, R215 -/
  | ldVxMem (x : Reg)
  deriving DecidableEq, Repr

end Sys2Proof
end

