-- ==== Sys2Proof/WellFormed.lean ====
section
/-! DEFINITION. The ranges of an instruction's operands (R94, R95 of 30_encoding.md) and the size of a
program (R288 of 60_exceptions.md), as checks on plain numbers. -/

namespace Sys2Proof

/-- The operand fields of R94. -/
inductive OperandKind where
  /-- `x` or `y`, 4 bits -/
  | reg
  /-- `n`, 4 bits -/
  | nibble
  /-- `nn`, 8 bits -/
  | byte
  /-- `nnn`, 12 bits -/
  | addr
  deriving DecidableEq, Repr

/-- How many values a field of R95 can hold. -/
def OperandKind.bound : OperandKind → Nat
  | .reg => 16
  | .nibble => 16
  | .byte => 256
  | .addr => 4096

/-- One operand a field, each in its field's range (R95). -/
def operandsOk : List OperandKind → List Nat → Bool
  | [], [] => true
  | k :: ks, v :: vs => decide (v < k.bound) && operandsOk ks vs
  | [], _ :: _ => false
  | _ :: _, [] => false

/-- The fields of an instruction's format, from the most significant (R94). -/
def Instr.kinds : Instr → List OperandKind
  | .cls => []
  | .ret => []
  | .jp _ => [.addr]
  | .call _ => [.addr]
  | .seVxNn _ _ => [.reg, .byte]
  | .sneVxNn _ _ => [.reg, .byte]
  | .seVxVy _ _ => [.reg, .reg]
  | .ldVxNn _ _ => [.reg, .byte]
  | .addVxNn _ _ => [.reg, .byte]
  | .ldVxVy _ _ => [.reg, .reg]
  | .orVxVy _ _ => [.reg, .reg]
  | .andVxVy _ _ => [.reg, .reg]
  | .xorVxVy _ _ => [.reg, .reg]
  | .addVxVy _ _ => [.reg, .reg]
  | .sub _ _ => [.reg, .reg]
  | .shr _ _ => [.reg, .reg]
  | .subn _ _ => [.reg, .reg]
  | .shl _ _ => [.reg, .reg]
  | .sneVxVy _ _ => [.reg, .reg]
  | .ldINnn _ => [.addr]
  | .jpV0 _ => [.addr]
  | .rnd _ _ => [.reg, .byte]
  | .drw _ _ _ => [.reg, .reg, .nibble]
  | .skp _ => [.reg]
  | .sknp _ => [.reg]
  | .ldVxDt _ => [.reg]
  | .ldVxK _ => [.reg]
  | .ldDtVx _ => [.reg]
  | .ldStVx _ => [.reg]
  | .addIVx _ => [.reg]
  | .ldFVx _ => [.reg]
  | .ldBVx _ => [.reg]
  | .ldMemVx _ => [.reg]
  | .ldVxMem _ => [.reg]

/-- An instruction's operands as plain numbers, in the order of `Instr.kinds`. -/
def Instr.operands : Instr → List Nat
  | .cls => []
  | .ret => []
  | .jp nnn => [nnn.toNat]
  | .call nnn => [nnn.toNat]
  | .seVxNn x nn => [x.val, nn.toNat]
  | .sneVxNn x nn => [x.val, nn.toNat]
  | .seVxVy x y => [x.val, y.val]
  | .ldVxNn x nn => [x.val, nn.toNat]
  | .addVxNn x nn => [x.val, nn.toNat]
  | .ldVxVy x y => [x.val, y.val]
  | .orVxVy x y => [x.val, y.val]
  | .andVxVy x y => [x.val, y.val]
  | .xorVxVy x y => [x.val, y.val]
  | .addVxVy x y => [x.val, y.val]
  | .sub x y => [x.val, y.val]
  | .shr x y => [x.val, y.val]
  | .subn x y => [x.val, y.val]
  | .shl x y => [x.val, y.val]
  | .sneVxVy x y => [x.val, y.val]
  | .ldINnn nnn => [nnn.toNat]
  | .jpV0 nnn => [nnn.toNat]
  | .rnd x nn => [x.val, nn.toNat]
  | .drw x y n => [x.val, y.val, n.val]
  | .skp x => [x.val]
  | .sknp x => [x.val]
  | .ldVxDt x => [x.val]
  | .ldVxK x => [x.val]
  | .ldDtVx x => [x.val]
  | .ldStVx x => [x.val]
  | .addIVx x => [x.val]
  | .ldFVx x => [x.val]
  | .ldBVx x => [x.val]
  | .ldMemVx x => [x.val]
  | .ldVxMem x => [x.val]

/-- Every operand is in its field's range. The operand types of Syntax.lean already bound every field, so
every instruction passes (Laws/PerInstr.lean, family `InRange`); the check can fail only on plain numbers. -/
def Instr.wellFormed (i : Instr) : Bool := operandsOk i.kinds i.operands

/-- `MAX_PROGRAM` (R6): the most bytes `loadProgram` accepts. -/
def maxProgram : Nat := 3584

/-- The size check of `loadProgram` (R288). -/
def programOk (b : List Byte) : Bool := decide (b.length ≤ maxProgram)

end Sys2Proof
end

