-- ==== Sys2Proof/Decode.lean ====
section
/-! DEFINITION. The decoder and the encoder: the fields of R11 (00_scope.md), the formats and the opcode map
of R94-R98 (30_encoding.md), the byte order of R64 (20_memory.md). -/

namespace Sys2Proof

/-! ## Fields (R11) -/

/-- `op[15:12]`, the family. -/
def opFamily (op : Word) : BitVec 4 := op.extractLsb' 12 4

/-- `op[11:8]`, the register number `x`. -/
def opX (op : Word) : Reg := (op.extractLsb' 8 4).toFin

/-- `op[7:4]`, the register number `y`. -/
def opY (op : Word) : Reg := (op.extractLsb' 4 4).toFin

/-- `op[3:0]`, the row count `n` or a sub-code. -/
def opN (op : Word) : Fin 16 := (op.extractLsb' 0 4).toFin

/-- `op[7:0]`, the immediate `nn` or a sub-byte. -/
def opNn (op : Word) : Byte := op.extractLsb' 0 8

/-- `op[11:0]`, the address `nnn`. -/
def opNnn (op : Word) : Addr12 := op.extractLsb' 0 12

/-! ## Byte order (R64) -/

/-- The byte at the lower address is `op[15:8]`. -/
def wordOfBytes (hi lo : Byte) : Word := hi ++ lo

/-- The two bytes of a word in the order of their addresses. -/
def bytesOfWord (w : Word) : List Byte := [w.extractLsb' 8 8, w.extractLsb' 0 8]

/-! ## Decode (R97, R98) -/

/-- What decode answers (R97): an instruction with its fields, or `Unsupported`, with the word. -/
inductive Decoded where
  | instr (i : Instr)
  | unsupported (op : Word)
  deriving DecidableEq, Repr

/-- Family 0x8 is selected by `op[3:0]` (R97); the sub-codes are those of R96 (D34, log 23). -/
def decodeFamily8 (op : Word) : Decoded :=
  match (opN op).val with
  | 0x0 => .instr (.ldVxVy (opX op) (opY op))
  | 0x1 => .instr (.orVxVy (opX op) (opY op))
  | 0x2 => .instr (.andVxVy (opX op) (opY op))
  | 0x3 => .instr (.xorVxVy (opX op) (opY op))
  | 0x4 => .instr (.addVxVy (opX op) (opY op))
  | 0x5 => .instr (.sub (opX op) (opY op))
  | 0x6 => .instr (.shr (opX op) (opY op))
  | 0x7 => .instr (.subn (opX op) (opY op))
  | 0xE => .instr (.shl (opX op) (opY op))
  | _ => .unsupported op

/-- Family 0xE is selected by `op[7:0]` (R97). -/
def decodeFamilyE (op : Word) : Decoded :=
  match (opNn op).toNat with
  | 0x9E => .instr (.skp (opX op))
  | 0xA1 => .instr (.sknp (opX op))
  | _ => .unsupported op

/-- Family 0xF is selected by `op[7:0]` (R97). -/
def decodeFamilyF (op : Word) : Decoded :=
  match (opNn op).toNat with
  | 0x07 => .instr (.ldVxDt (opX op))
  | 0x0A => .instr (.ldVxK (opX op))
  | 0x15 => .instr (.ldDtVx (opX op))
  | 0x18 => .instr (.ldStVx (opX op))
  | 0x1E => .instr (.addIVx (opX op))
  | 0x29 => .instr (.ldFVx (opX op))
  | 0x33 => .instr (.ldBVx (opX op))
  | 0x55 => .instr (.ldMemVx (opX op))
  | 0x65 => .instr (.ldVxMem (opX op))
  | _ => .unsupported op

/-- Strict decode of a 16-bit opcode (R97, R98): a total function that reads no state (R101). -/
def decode (op : Word) : Decoded :=
  match (opFamily op).toNat with
  | 0x0 =>
    if op = 0x00E0#16 then .instr .cls
    else if op = 0x00EE#16 then .instr .ret
    else .unsupported op
  | 0x1 => .instr (.jp (opNnn op))
  | 0x2 => .instr (.call (opNnn op))
  | 0x3 => .instr (.seVxNn (opX op) (opNn op))
  | 0x4 => .instr (.sneVxNn (opX op) (opNn op))
  | 0x5 => if (opN op).val = 0 then .instr (.seVxVy (opX op) (opY op)) else .unsupported op
  | 0x6 => .instr (.ldVxNn (opX op) (opNn op))
  | 0x7 => .instr (.addVxNn (opX op) (opNn op))
  | 0x8 => decodeFamily8 op
  | 0x9 => if (opN op).val = 0 then .instr (.sneVxVy (opX op) (opY op)) else .unsupported op
  | 0xA => .instr (.ldINnn (opNnn op))
  | 0xB => .instr (.jpV0 (opNnn op))
  | 0xC => .instr (.rnd (opX op) (opNn op))
  | 0xD => .instr (.drw (opX op) (opY op) (opN op))
  | 0xE => decodeFamilyE op
  | _ => decodeFamilyF op

/-- Decode the instruction at the front of a list of bytes, with the bytes that follow it. Every instruction
is two bytes (R93); `none` only where fewer than two bytes are left. -/
def decodeBytes : List Byte → Option (Decoded × List Byte)
  | hi :: lo :: rest => some (decode (wordOfBytes hi lo), rest)
  | [_] => none
  | [] => none

/-! ## Encode (R94, R96) -/

/-- Format `A`: family, nnn. -/
def encA (family : BitVec 4) (nnn : Addr12) : Word := family ++ nnn

/-- Format `XNN`, and format `X` with its sub-byte in the place of `nn`: family, x, nn. -/
def encXnn (family : BitVec 4) (x : Reg) (nn : Byte) : Word :=
  family ++ BitVec.ofFin (w := 4) x ++ nn

/-- Format `XYN`, and format `XY` with its sub-code in the place of `n`: family, x, y, n. -/
def encXyn (family : BitVec 4) (x y n : Fin 16) : Word :=
  family ++ BitVec.ofFin (w := 4) x ++ BitVec.ofFin (w := 4) y ++ BitVec.ofFin (w := 4) n

/-- The word of an instruction (R94, R96). -/
def encode : Instr → Word
  | .cls => 0x00E0#16
  | .ret => 0x00EE#16
  | .jp nnn => encA 0x1#4 nnn
  | .call nnn => encA 0x2#4 nnn
  | .seVxNn x nn => encXnn 0x3#4 x nn
  | .sneVxNn x nn => encXnn 0x4#4 x nn
  | .seVxVy x y => encXyn 0x5#4 x y 0x0
  | .ldVxNn x nn => encXnn 0x6#4 x nn
  | .addVxNn x nn => encXnn 0x7#4 x nn
  | .ldVxVy x y => encXyn 0x8#4 x y 0x0
  | .orVxVy x y => encXyn 0x8#4 x y 0x1
  | .andVxVy x y => encXyn 0x8#4 x y 0x2
  | .xorVxVy x y => encXyn 0x8#4 x y 0x3
  | .addVxVy x y => encXyn 0x8#4 x y 0x4
  | .sub x y => encXyn 0x8#4 x y 0x5
  | .shr x y => encXyn 0x8#4 x y 0x6
  | .subn x y => encXyn 0x8#4 x y 0x7
  | .shl x y => encXyn 0x8#4 x y 0xE
  | .sneVxVy x y => encXyn 0x9#4 x y 0x0
  | .ldINnn nnn => encA 0xA#4 nnn
  | .jpV0 nnn => encA 0xB#4 nnn
  | .rnd x nn => encXnn 0xC#4 x nn
  | .drw x y n => encXyn 0xD#4 x y n
  | .skp x => encXnn 0xE#4 x 0x9E#8
  | .sknp x => encXnn 0xE#4 x 0xA1#8
  | .ldVxDt x => encXnn 0xF#4 x 0x07#8
  | .ldVxK x => encXnn 0xF#4 x 0x0A#8
  | .ldDtVx x => encXnn 0xF#4 x 0x15#8
  | .ldStVx x => encXnn 0xF#4 x 0x18#8
  | .addIVx x => encXnn 0xF#4 x 0x1E#8
  | .ldFVx x => encXnn 0xF#4 x 0x29#8
  | .ldBVx x => encXnn 0xF#4 x 0x33#8
  | .ldMemVx x => encXnn 0xF#4 x 0x55#8
  | .ldVxMem x => encXnn 0xF#4 x 0x65#8

/-- The bytes of an instruction, in the order of their addresses (R64). -/
def encodeBytes (i : Instr) : List Byte := bytesOfWord (encode i)

/-! ## The opcode map as a table (R96) -/

/-- A row of R96: a word belongs to it when `op AND mask = value`. -/
structure OpRow where
  mask  : Word
  value : Word
  deriving DecidableEq, Repr

/-- The word belongs to the row (R98). -/
def OpRow.covers (r : OpRow) (op : Word) : Bool := op &&& r.mask == r.value

/-- The row of R96 that an instruction belongs to. -/
def Instr.row : Instr → OpRow
  | .cls => ⟨0xFFFF, 0x00E0⟩
  | .ret => ⟨0xFFFF, 0x00EE⟩
  | .jp _ => ⟨0xF000, 0x1000⟩
  | .call _ => ⟨0xF000, 0x2000⟩
  | .seVxNn _ _ => ⟨0xF000, 0x3000⟩
  | .sneVxNn _ _ => ⟨0xF000, 0x4000⟩
  | .seVxVy _ _ => ⟨0xF00F, 0x5000⟩
  | .ldVxNn _ _ => ⟨0xF000, 0x6000⟩
  | .addVxNn _ _ => ⟨0xF000, 0x7000⟩
  | .ldVxVy _ _ => ⟨0xF00F, 0x8000⟩
  | .orVxVy _ _ => ⟨0xF00F, 0x8001⟩
  | .andVxVy _ _ => ⟨0xF00F, 0x8002⟩
  | .xorVxVy _ _ => ⟨0xF00F, 0x8003⟩
  | .addVxVy _ _ => ⟨0xF00F, 0x8004⟩
  | .sub _ _ => ⟨0xF00F, 0x8005⟩
  | .shr _ _ => ⟨0xF00F, 0x8006⟩
  | .subn _ _ => ⟨0xF00F, 0x8007⟩
  | .shl _ _ => ⟨0xF00F, 0x800E⟩
  | .sneVxVy _ _ => ⟨0xF00F, 0x9000⟩
  | .ldINnn _ => ⟨0xF000, 0xA000⟩
  | .jpV0 _ => ⟨0xF000, 0xB000⟩
  | .rnd _ _ => ⟨0xF000, 0xC000⟩
  | .drw _ _ _ => ⟨0xF000, 0xD000⟩
  | .skp _ => ⟨0xF0FF, 0xE09E⟩
  | .sknp _ => ⟨0xF0FF, 0xE0A1⟩
  | .ldVxDt _ => ⟨0xF0FF, 0xF007⟩
  | .ldVxK _ => ⟨0xF0FF, 0xF00A⟩
  | .ldDtVx _ => ⟨0xF0FF, 0xF015⟩
  | .ldStVx _ => ⟨0xF0FF, 0xF018⟩
  | .addIVx _ => ⟨0xF0FF, 0xF01E⟩
  | .ldFVx _ => ⟨0xF0FF, 0xF029⟩
  | .ldBVx _ => ⟨0xF0FF, 0xF033⟩
  | .ldMemVx _ => ⟨0xF0FF, 0xF055⟩
  | .ldVxMem _ => ⟨0xF0FF, 0xF065⟩

/-- The 34 rows of R96, in the table's order. -/
def opcodeTable : List OpRow :=
  [⟨0xFFFF, 0x00E0⟩, ⟨0xFFFF, 0x00EE⟩, ⟨0xF000, 0x1000⟩, ⟨0xF000, 0x2000⟩, ⟨0xF000, 0x3000⟩,
    ⟨0xF000, 0x4000⟩, ⟨0xF00F, 0x5000⟩, ⟨0xF000, 0x6000⟩, ⟨0xF000, 0x7000⟩] ++
  [⟨0xF00F, 0x8000⟩, ⟨0xF00F, 0x8001⟩, ⟨0xF00F, 0x8002⟩, ⟨0xF00F, 0x8003⟩, ⟨0xF00F, 0x8004⟩,
    ⟨0xF00F, 0x8005⟩, ⟨0xF00F, 0x8006⟩, ⟨0xF00F, 0x8007⟩, ⟨0xF00F, 0x800E⟩, ⟨0xF00F, 0x9000⟩] ++
  [⟨0xF000, 0xA000⟩, ⟨0xF000, 0xB000⟩, ⟨0xF000, 0xC000⟩, ⟨0xF000, 0xD000⟩, ⟨0xF0FF, 0xE09E⟩,
    ⟨0xF0FF, 0xE0A1⟩] ++
  [⟨0xF0FF, 0xF007⟩, ⟨0xF0FF, 0xF00A⟩, ⟨0xF0FF, 0xF015⟩, ⟨0xF0FF, 0xF018⟩, ⟨0xF0FF, 0xF01E⟩,
    ⟨0xF0FF, 0xF029⟩, ⟨0xF0FF, 0xF033⟩, ⟨0xF0FF, 0xF055⟩, ⟨0xF0FF, 0xF065⟩]

/-! ## The table's numbering of an instruction's bits -/

/-- The instruction word whose low `nbits` bits, as spec/opcode_table.json numbers them, are those of `w`; the
bits above are zero. Every instruction is one 16-bit word (R93), so the table's number is the word. -/
def tableWord (nbits w : Nat) : Word := BitVec.ofNat 16 (w % 2 ^ nbits)

/-- The instruction the decoder reads from a table word laid out in memory (high byte first, R64). -/
def decodeTableWord (nbits w : Nat) : Option Instr :=
  match decodeBytes (bytesOfWord (tableWord nbits w)) with
  | some (.instr i, _) => some i
  | some (.unsupported _, _) => none
  | none => none

end Sys2Proof
end

