-- ==== Sys2Proof/Config.lean ====
section
/-! DEFINITION. The configuration parameters of R8 (00_scope.md) and the free random byte of R9. -/

namespace Sys2Proof

/-- `TIMER_MODE`: when the timers tick (R253, D1). -/
inductive TimerMode where
  | externalTick
  | perStep
  deriving DecidableEq, Repr

/-- `SHIFT_SOURCE`: the register that 8XY6 and 8XYE shift (R178, R180, D13). -/
inductive ShiftSource where
  | vx
  | vy
  deriving DecidableEq, Repr

/-- `SPRITE_EDGE`: what becomes of a sprite's pixels past the edge (R122, D11). -/
inductive SpriteEdge where
  | wrap
  | clip
  deriving DecidableEq, Repr

/-- `STACK_POLICY`: what a stack underflow or overflow does (R141, R143, D8, D9). -/
inductive StackPolicy where
  | report
  | fault
  deriving DecidableEq, Repr

/-- The six parameters of R8. Their defaults are in Machine/Defaults.lean. -/
structure Params where
  timerMode           : TimerMode
  shiftSource         : ShiftSource
  /-- `LOADSTORE_INCREMENTS_I` (R214, R215, D16). -/
  loadStoreIncrementsI : Bool
  spriteEdge          : SpriteEdge
  stackPolicy         : StackPolicy
  /-- `FONT`, the 80 bytes placed at 0x000 (R33, D19). -/
  font                : Vector Byte 80
  deriving DecidableEq, Repr

/-- The byte the random source supplies to the `k`-th execution of CXNN (R9, R182, U8): a FREE VALUE, no
body, so a claim about CXNN holds for every byte. DESIGN CHOICE, log 6. -/
opaque Config.rand8 : Nat → Byte

end Sys2Proof
end

