-- ==== Sys2Proof/Machine/Defaults.lean ====
section
/-! DEFINITION. The default values of the parameters (R8 of 00_scope.md) and the default font (R33 of 10_state.md). -/

namespace Sys2Proof.Machine

/-- The default `FONT`: 16 glyphs of 5 bytes, glyph d at 5·d (R33). PRESUMED: the bytes are the spec's from
general knowledge (D19, G1), log 3. -/
def defaultFont : Vector Byte 80 :=
  #v[0xF0, 0x90, 0x90, 0x90, 0xF0, 0x20, 0x60, 0x20, 0x20, 0x70,
     0xF0, 0x10, 0xF0, 0x80, 0xF0, 0xF0, 0x10, 0xF0, 0x10, 0xF0,
     0x90, 0x90, 0xF0, 0x10, 0x10, 0xF0, 0x80, 0xF0, 0x10, 0xF0,
     0xF0, 0x80, 0xF0, 0x90, 0xF0, 0xF0, 0x10, 0x20, 0x40, 0x40,
     0xF0, 0x90, 0xF0, 0x90, 0xF0, 0xF0, 0x90, 0xF0, 0x10, 0xF0,
     0xF0, 0x90, 0xF0, 0x90, 0x90, 0xE0, 0x90, 0xE0, 0x90, 0xE0,
     0xF0, 0x80, 0x80, 0x80, 0xF0, 0xE0, 0x90, 0x90, 0x90, 0xE0,
     0xF0, 0x80, 0xF0, 0x80, 0xF0, 0xF0, 0x80, 0xF0, 0x80, 0x80]

/-- The defaults of R8, the values the spec specifies (log 2). -/
def defaultParams : Params where
  timerMode := .externalTick
  shiftSource := .vx
  loadStoreIncrementsI := false
  spriteEdge := .wrap
  stackPolicy := .report
  font := defaultFont

end Sys2Proof.Machine
end

