-- ==== Sys2Proof/Machine/State.lean ====
section
/-! DEFINITION. The machine's state (R20 of 10_state.md), its faults and reports, and the state after reset (R34). -/

namespace Sys2Proof.Machine

/-- Memory M (R60): the bytes that differ from the reset contents, by rising address (log 4). What an
unlisted address reads as is `Memory.base` in Machine/Ops.lean. -/
abbrev Memory := List Host.Cell

/-- The display D (R31): 32 rows, and bit x of row y is pixel (x, y) = D[x + 64·y] (log 13). -/
abbrev Screen := Vector (BitVec 64) 32

/-- The causes of R271. -/
inductive FaultCause where
  | fetchRange
  | memRange
  | keyRange
  | stackUnderflow
  | stackOverflow
  deriving DecidableEq, Repr

/-- The contents of the fault register F when it is not none (R36). -/
structure FaultRecord where
  cause : FaultCause
  pc    : Word
  info  : Word
  deriving DecidableEq, Repr

/-- The reports of R277 with their payloads (C10 for the first). -/
inductive Report where
  | unsupportedOpcode (pc op : Word)
  | stackUnderflow (pc : Word)
  | stackOverflow (pc : Word)
  deriving DecidableEq, Repr

/-- Why a step could stop. It has no constructor: this machine never stops. The spec's own faults (R271)
are next states in which `State.fault` is set (R272), never an outcome of this kind (log 8). -/
inductive Fault where
  deriving DecidableEq, Repr

/-- Why a step could be refused. -/
inductive Refusal where
  /-- Raised only by an arm of `exec` whose instruction has no meaning yet; there is none. Safe: the machine
  stops where the hardware goes on. -/
  | notModelled (mnemonic : String)
  deriving DecidableEq, Repr

/-- The state of the machine: the tuple (M, V, I, PC, S, SP, DT, ST, K, D, RP, W, F) of R20, and three
fields of the model's own. -/
structure State where
  /-- M (R60) -/
  mem     : Memory
  /-- V0-VF (R21) -/
  v       : Vector Byte 16
  /-- I (R27) -/
  i       : Word
  /-- PC (R25) -/
  pc      : Word
  /-- S[0..15] (R28) -/
  stack   : Vector Word 16
  /-- SP (R28): 0-16, the number of occupied entries -/
  sp      : Fin 17
  /-- DT (R29) -/
  dt      : Byte
  /-- ST (R29) -/
  st      : Byte
  /-- K[0..15] (R30), true means pressed -/
  keys    : Vector Bool 16
  /-- D[0..2047] (R31) -/
  display : Screen
  /-- RP (R32) -/
  rp      : Bool
  /-- W (R35) -/
  wait    : Option Reg
  /-- F (R36) -/
  fault   : Option FaultRecord
  /-- MODEL's own: the parameters of R8; nothing writes them (log 1). -/
  cfg     : Params
  /-- MODEL's own: how many bytes CXNN has drawn from the random source (R9, log 6). -/
  draws   : Nat
  /-- MODEL's own: the reports emitted so far, newest first (R276, log 7); nothing reads them. -/
  reports : List Report
  deriving DecidableEq, Repr

/-- The machine right after reset (R34, R300), with the default parameters (R8): memory at its reset
contents, so nothing is listed. -/
def State.reset : State where
  mem := []
  v := Vector.replicate 16 0
  i := 0
  pc := 0x200
  stack := Vector.replicate 16 0
  sp := 0
  dt := 0
  st := 0
  keys := Vector.replicate 16 false
  display := Vector.replicate 32 0
  rp := false
  wait := none
  fault := none
  cfg := defaultParams
  draws := 0
  reports := []

/-- The answer of `loadProgram` (R288). -/
inductive LoadResult where
  | ok
  | rejectOversize
  deriving DecidableEq, Repr

/-- The block's input events (R285); reads have no effect and are functions of the state (R289). -/
inductive Event where
  | step
  | tick60
  | setKey (k : Key) (pressed : Bool)
  | clearRedraw
  | loadProgram (b : List Byte)
  | reset
  deriving DecidableEq, Repr

end Sys2Proof.Machine
end

