-- ==== Sys2Proof/Machine/Ops.lean ====
section
/-! DEFINITION. The named operations over memory and state: reads and writes, the program counter, faults
and reports, the timer tick, the fetch, and reset. Each is written once and used by the meanings. -/

namespace Sys2Proof.Machine

/-! ## Memory (R60-R70 of 20_memory.md) -/

/-- The reset contents of M (R34): the default font in 0x000-0x04F, zero elsewhere. This is what an address
that is not listed reads as (log 4). -/
def Memory.base (a : Nat) : Byte :=
  if h : a < 80 then defaultFont[a] else 0

/-- `MemRead(a, 1)` (R62). Addresses above 0xFFF are never read by the machine (log 28). -/
def Memory.read : Memory → Nat → Byte
  | [], a => Memory.base a
  | (k, b) :: rest, a => if k = a then b else Memory.read rest a

/-- Put a cell in front, unless its byte is what its address reads as unlisted. -/
def Memory.consCell (a : Nat) (b : Byte) (rest : Memory) : Memory :=
  if b = Memory.base a then rest else (a, b) :: rest

/-- `MemWrite(a, 1, b)` (R62), keeping the list in canonical form. -/
def Memory.write : Memory → Nat → Byte → Memory
  | [], a, b => Memory.consCell a b []
  | (k, c) :: rest, a, b =>
    if a < k then Memory.consCell a b ((k, c) :: rest)
    else if a = k then Memory.consCell a b rest
    else (k, c) :: Memory.write rest a b

/-- Write bytes at rising addresses from `a`, in that order (R65). -/
def Memory.writeBytes : Memory → Nat → List Byte → Memory
  | m, _, [] => m
  | m, a, b :: rest => Memory.writeBytes (Memory.write m a b) (a + 1) rest

/-- Read `n` bytes at rising addresses from `a` (R65). -/
def Memory.readBytes (m : Memory) (a n : Nat) : List Byte :=
  (List.range n).map (fun k => Memory.read m (a + k))

/-- Every address listed is at least `lo` and inside the address space, they rise strictly, and no entry
equals what its address reads as unlisted. -/
def Memory.wfFrom : Nat → Memory → Bool
  | _, [] => true
  | lo, (k, b) :: rest =>
    decide (lo ≤ k) && decide (k < 4096) && decide (b ≠ Memory.base k) && Memory.wfFrom (k + 1) rest

/-- The canonical form of memory (log 4). -/
def Memory.wf (m : Memory) : Bool := Memory.wfFrom 0 m

/-! ## Register and state updates (R12 of 00_scope.md) -/

/-- `V[x]` (R21). -/
def State.getV (s : State) (x : Reg) : Byte := s.v[x]

/-- `V[x] <- b` (R21). -/
def State.setV (s : State) (x : Reg) (b : Byte) : State := { s with v := s.v.set x b }

/-- `I <- w` (R27). -/
def State.setI (s : State) (w : Word) : State := { s with i := w }

/-- `PC <- w` (R25). -/
def State.setPc (s : State) (w : Word) : State := { s with pc := w }

/-- `M <- m` (R60). -/
def State.setMem (s : State) (m : Memory) : State := { s with mem := m }

/-- `DT <- b` (R29). -/
def State.setDt (s : State) (b : Byte) : State := { s with dt := b }

/-- `ST <- b` (R29). -/
def State.setSt (s : State) (b : Byte) : State := { s with st := b }

/-- `K[k] <- p` (R30). -/
def State.setKeyFlag (s : State) (k : Key) (p : Bool) : State := { s with keys := s.keys.set k p }

/-- `K[k]` (R30). -/
def State.keyFlag (s : State) (k : Key) : Bool := s.keys[k]

/-- Write the display and set the redraw flag (R32). -/
def State.showScreen (s : State) (d : Screen) : State := { s with display := d, rp := true }

/-- `RP <- false` (R287). -/
def State.clearRp (s : State) : State := { s with rp := false }

/-- `W <- w` (R35). -/
def State.setWait (s : State) (w : Option Reg) : State := { s with wait := w }

/-- One more byte drawn from the random source (R9, log 6). -/
def State.drawn (s : State) : State := { s with draws := s.draws + 1 }

/-- `S[j]` (R28). -/
def State.stackAt (s : State) (j : Fin 16) : Word := s.stack[j]

/-- The top entry `S[SP - 1]`, where SP is not 0 (R28). -/
def State.stackTop (s : State) (_h : s.sp.val ≠ 0) : Word :=
  s.stackAt ⟨s.sp.val - 1, by omega⟩

/-- `S[SP] <- w; SP <- SP + 1`, where SP is not 16 (R28). -/
def State.push (s : State) (w : Word) (_h : s.sp.val ≠ 16) : State :=
  { s with stack := s.stack.set s.sp.val w (by omega), sp := ⟨s.sp.val + 1, by omega⟩ }

/-- `SP <- SP - 1`, where SP is not 0; the entry is not cleared (R28, D36). -/
def State.pop (s : State) (_h : s.sp.val ≠ 0) : State :=
  { s with sp := ⟨s.sp.val - 1, by omega⟩ }

/-! ## The program counter (R25 of 10_state.md) -/

/-- "next": `PC <- PC + 2`, modulo 2^16 (R26). -/
def State.next (s : State) : State := s.setPc (s.pc + 2)

/-- "skip": `PC <- PC + 4` where the condition holds, else `PC + 2`. -/
def State.skipIf (s : State) (c : Bool) : State := s.setPc (if c then s.pc + 4 else s.pc + 2)

/-! ## Faults and reports (R270-R277 of 60_exceptions.md) -/

/-- Taking a fault (R272): F records the cause, the PC and the info, and nothing else is written. There is
no return from a fault (R274); only the reset event, `State.resetEvent`, clears F. -/
def State.raise (s : State) (cause : FaultCause) (info : Word) : State :=
  { s with fault := some ⟨cause, s.pc, info⟩ }

/-- The code of a cause (R271). -/
def FaultCause.code : FaultCause → Nat
  | .fetchRange => 1
  | .memRange => 2
  | .keyRange => 3
  | .stackUnderflow => 4
  | .stackOverflow => 5

/-- Emit a report (R276). -/
def State.emit (s : State) (r : Report) : State := { s with reports := r :: s.reports }

/-! ## Effective addresses (R62, R63 of 20_memory.md) -/

/-- `I + k`, an unbounded natural number (R62). -/
def State.ea (s : State) (k : Nat) : Nat := s.i.toNat + k

/-- The `n` addresses `I .. I + n - 1` all exist: none is above 0xFFF (R63). -/
def State.accessOk (s : State) (n : Nat) : Bool := decide (n = 0 ∨ s.ea (n - 1) ≤ 0xFFF)

/-- The first effective address above 0xFFF, `max(I, 0x1000)` (R271). -/
def State.firstOutside (s : State) : Word := if s.i.toNat < 0x1000 then 0x1000 else s.i

/-- Apply an effect that accesses `n` bytes at I, or raise MEM_RANGE before any write (R63). -/
def State.withAccess (s : State) (n : Nat) (effect : State → State) : State :=
  if s.accessOk n then effect s else s.raise .memRange s.firstOutside

/-! ## The timers (R252, R253 of 44_keys_timers.md) -/

/-- One less, and not below 0 (R252). -/
def countDown (b : Byte) : Byte := if b = 0 then 0 else b - 1

/-- `Tick()` (R252). -/
def State.tick (s : State) : State := (s.setDt (countDown s.dt)).setSt (countDown s.st)

/-- The tick that ends a completed step or wait under `per_step` (R90, R246, R253). -/
def State.stepTick (s : State) : State :=
  if s.cfg.timerMode = .perStep then s.tick else s

/-! ## The instruction cycle (R90-R92, R99 of 30_encoding.md) -/

/-- Faulted or waiting for a key: a step changes nothing (R91). -/
def State.held (s : State) : Bool := s.fault.isSome || s.wait.isSome

/-- The opcode at an address, big-endian (R64). -/
def Memory.wordAt (m : Memory) (a : Nat) : Word := wordOfBytes (m.read a) (m.read (a + 1))

/-- The fetch (R92): `none` where PC + 1 > 0xFFF. -/
def State.fetch (s : State) : Option Word :=
  if s.pc.toNat + 1 ≤ 0xFFF then some (s.mem.wordAt s.pc.toNat) else none

/-- An unsupported word: report it and advance (R99). -/
def State.skipUnsupported (s : State) (op : Word) : State :=
  (s.emit (.unsupportedOpcode s.pc op)).next

/-- The last stage of a step (R90): the `per_step` tick, unless the step faulted or began to wait. -/
def State.endStep (s : State) : State := if s.held then s else s.stepTick

/-- Place a word where the next step fetches, with the machine able to fetch it: not held, and PC in range
(an unfetchable PC becomes 0x200). This stands for loading a program from outside (log 12). -/
def State.placeWord (s : State) (w : Word) : State :=
  let pc : Word := if s.pc.toNat + 1 ≤ 0xFFF then s.pc else 0x200
  { s with mem := s.mem.writeBytes pc.toNat (bytesOfWord w), pc := pc, fault := none, wait := none }

/-! ## Reset (R300 of 70_reset_and_hazards.md) -/

/-- The creation state under given parameters (R34): `State.reset`, with `FONT` copied into low memory. -/
def State.resetWith (p : Params) : State :=
  { State.reset with mem := Memory.writeBytes [] 0 p.font.toList, cfg := p }

/-- The `reset` event (R300): every component of R20 at its value of R34. The model's own fields are not
components: the parameters stay, and the host's log and the position in the random source do not go back (log 11). -/
def State.resetEvent (s : State) : State :=
  { State.resetWith s.cfg with draws := s.draws, reports := s.reports }

end Sys2Proof.Machine
end

