-- ==== Sys2Proof/Machine/Flags.lean ====
section
/-! DEFINITION. The flag computations (R22, R24 of 10_state.md). VF, register 0xF, is the only flag; each is
0x00 or 0x01 and is the last write of its instruction (D15, log 15). -/

namespace Sys2Proof.Machine

/-- VF, the flag register (R22). -/
def vF : Reg := 0xF

/-- A flag as a byte: 0x00 or 0x01 (R22). -/
def flagByte (f : Bool) : Byte := if f then 1 else 0

/-- `V[0xF] <- f` (R22). -/
def State.setFlag (s : State) (f : Bool) : State := s.setV vF (flagByte f)

/-- A result and then its flag (R22, D15). -/
def State.setVFlag (s : State) (x : Reg) (b : Byte) (f : Bool) : State := (s.setV x b).setFlag f

/-- The carry of 8XY4: the exact sum is above 255 (R176). -/
def carryFlag (a b : Byte) : Bool := decide (255 < a.toNat + b.toNat)

/-- NOT borrow of `a - b`: a ≥ b (R177; R179 with the operands reversed, D35). -/
def noBorrowFlag (a b : Byte) : Bool := decide (b.toNat ≤ a.toNat)

/-- The bit 8XY6 shifts out: bit 0 (R178). -/
def shrFlag (a : Byte) : Bool := a.getLsbD 0

/-- The bit 8XYE shifts out: bit 7 (R180). -/
def shlFlag (a : Byte) : Bool := a.getLsbD 7

/-- The range flag of FX1E: the untruncated sum is above 0xFFF (R211). -/
def rangeFlag (i : Word) (a : Byte) : Bool := decide (0xFFF < i.toNat + a.toNat)

end Sys2Proof.Machine
end

