-- ==== Sys2Proof/Machine/Operands.lean ====
section
/-! DEFINITION. The operand forms that are more than a register, an immediate or an address: the shift
operand, the key index, the glyph address, decimal digits, and the registers V0 to Vx as a block. -/

namespace Sys2Proof.Machine

/-- The operand of 8XY6 and 8XYE: V[x], or V[y] under `SHIFT_SOURCE = VY` (R178, R180, D13). -/
def State.shiftOperand (s : State) (x y : Reg) : Byte :=
  match s.cfg.shiftSource with
  | .vx => s.getV x
  | .vy => s.getV y

/-- The key that V[x] names, where there is one: V[x] ≤ 0x0F (R240, D10). -/
def State.keyOperand (s : State) (x : Reg) : Option Key :=
  if h : (s.getV x).toNat < 16 then some ⟨(s.getV x).toNat, h⟩ else none

/-- `zext_16(nnn)` (R95). -/
def addrWord (nnn : Addr12) : Word := nnn.setWidth 16

/-- `zext_16(b)` (R10). -/
def byteWord (b : Byte) : Word := b.setWidth 16

/-- `zext_16(b) * 5`, the address of a glyph (R212). -/
def glyphAddr (b : Byte) : Word := byteWord b * 5

/-- A natural number's low 8 bits (R10). -/
def natByte (n : Nat) : Byte := BitVec.ofNat 8 n

/-- The decimal digits of a byte: hundreds, tens, ones (R213). -/
def decimalDigits (b : Byte) : List Byte :=
  [natByte (b.toNat / 100), natByte (b.toNat / 10 % 10), natByte (b.toNat % 10)]

/-- V[0..x] in order (R214). -/
def State.regsUpTo (s : State) (x : Reg) : List Byte := s.v.toList.take (x.val + 1)

/-- `for k in 0..x: V[k] <- MemRead(I + k, 1)` (R215). -/
def State.loadRegs (s : State) (x : Reg) : State :=
  { s with v := Vector.ofFn (fun k : Fin 16 => if k ≤ x then s.mem.read (s.ea k.val) else s.getV k) }

/-- `I <- trunc_16(I + x + 1)` under `LOADSTORE_INCREMENTS_I`, else I unchanged (R214, R215, D16). -/
def State.advanceI (s : State) (x : Reg) : State :=
  if s.cfg.loadStoreIncrementsI then s.setI (BitVec.ofNat 16 (s.i.toNat + x.val + 1)) else s

end Sys2Proof.Machine
end

