-- ==== Sys2Proof/Machine/Alu.lean ====
section
/-! DEFINITION. The register and arithmetic instructions (42_alu.md). Operands are read before any write, and
each ends with `PC <- PC + 2`. -/

namespace Sys2Proof.Machine

/-- LD Vx, nn (R170). -/
def execLdVxNn (x : Reg) (nn : Byte) (s : State) : Host.Outcome State Fault Refusal :=
  .next (s.setV x nn).next

/-- ADD Vx, nn (R171): modulo 256, no flag. -/
def execAddVxNn (x : Reg) (nn : Byte) (s : State) : Host.Outcome State Fault Refusal :=
  .next (s.setV x (s.getV x + nn)).next

/-- LD Vx, Vy (R172). -/
def execLdVxVy (x y : Reg) (s : State) : Host.Outcome State Fault Refusal :=
  .next (s.setV x (s.getV y)).next

/-- OR Vx, Vy (R173); VF is not written unless x = F (D14). -/
def execOrVxVy (x y : Reg) (s : State) : Host.Outcome State Fault Refusal :=
  .next (s.setV x (s.getV x ||| s.getV y)).next

/-- AND Vx, Vy (R174); VF is not written unless x = F (D14). -/
def execAndVxVy (x y : Reg) (s : State) : Host.Outcome State Fault Refusal :=
  .next (s.setV x (s.getV x &&& s.getV y)).next

/-- XOR Vx, Vy (R175); VF is not written unless x = F (D14). -/
def execXorVxVy (x y : Reg) (s : State) : Host.Outcome State Fault Refusal :=
  .next (s.setV x (s.getV x ^^^ s.getV y)).next

/-- ADD Vx, Vy (R176). -/
def execAddVxVy (x y : Reg) (s : State) : Host.Outcome State Fault Refusal :=
  .next (s.setVFlag x (s.getV x + s.getV y) (carryFlag (s.getV x) (s.getV y))).next

/-- SUB Vx, Vy (R177). -/
def execSub (x y : Reg) (s : State) : Host.Outcome State Fault Refusal :=
  .next (s.setVFlag x (s.getV x - s.getV y) (noBorrowFlag (s.getV x) (s.getV y))).next

/-- SHR Vx, Vy (R178). -/
def execShr (x y : Reg) (s : State) : Host.Outcome State Fault Refusal :=
  .next (s.setVFlag x (s.shiftOperand x y >>> 1) (shrFlag (s.shiftOperand x y))).next

/-- SUBN Vx, Vy (R179). -/
def execSubn (x y : Reg) (s : State) : Host.Outcome State Fault Refusal :=
  .next (s.setVFlag x (s.getV y - s.getV x) (noBorrowFlag (s.getV y) (s.getV x))).next

/-- SHL Vx, Vy (R180). -/
def execShl (x y : Reg) (s : State) : Host.Outcome State Fault Refusal :=
  .next (s.setVFlag x (s.shiftOperand x y <<< 1) (shlFlag (s.shiftOperand x y))).next

/-- RND with the random byte `r` given (R182). -/
def rndWith (r : Byte) (x : Reg) (nn : Byte) (s : State) : State := (s.setV x (r &&& nn)).next

/-- RND Vx, nn (R182): the byte is the free value of this draw (R9, log 6). -/
def execRnd (x : Reg) (nn : Byte) (s : State) : Host.Outcome State Fault Refusal :=
  .next (rndWith (Config.rand8 s.draws) x nn s.drawn)

end Sys2Proof.Machine
end

