-- ==== Sys2Proof/Machine/Control.lean ====
section
/-! DEFINITION. The control transfers and skips (41_control.md). There is no delay slot (R150). -/

namespace Sys2Proof.Machine

/-- A stack error (R141, R143): under `report` the report is emitted and the core goes on at PC + 2 with the
stack as it was; under `fault` the fault is raised with info 0 (D8, D9, log 16). -/
def State.stackError (s : State) (report : Report) (cause : FaultCause) : State :=
  match s.cfg.stackPolicy with
  | .report => (s.emit report).next
  | .fault => s.raise cause 0

/-- RET (R140), with the underflow of R141. -/
def execRet (s : State) : Host.Outcome State Fault Refusal :=
  .next
    (if h : s.sp.val = 0 then s.stackError (.stackUnderflow s.pc) .stackUnderflow
    else (s.pop h).setPc (s.stackTop h + 2))

/-- JP nnn (R142). -/
def execJp (nnn : Addr12) (s : State) : Host.Outcome State Fault Refusal :=
  .next (s.setPc (addrWord nnn))

/-- CALL nnn (R143): the pushed value is the address of the CALL itself. -/
def execCall (nnn : Addr12) (s : State) : Host.Outcome State Fault Refusal :=
  .next
    (if h : s.sp.val = 16 then s.stackError (.stackOverflow s.pc) .stackOverflow
    else (s.push s.pc h).setPc (addrWord nnn))

/-- SE Vx, nn (R145). -/
def execSeVxNn (x : Reg) (nn : Byte) (s : State) : Host.Outcome State Fault Refusal :=
  .next (s.skipIf (s.getV x == nn))

/-- SNE Vx, nn (R146). -/
def execSneVxNn (x : Reg) (nn : Byte) (s : State) : Host.Outcome State Fault Refusal :=
  .next (s.skipIf (s.getV x != nn))

/-- SE Vx, Vy (R147). -/
def execSeVxVy (x y : Reg) (s : State) : Host.Outcome State Fault Refusal :=
  .next (s.skipIf (s.getV x == s.getV y))

/-- SNE Vx, Vy (R148). -/
def execSneVxVy (x y : Reg) (s : State) : Host.Outcome State Fault Refusal :=
  .next (s.skipIf (s.getV x != s.getV y))

/-- JP V0, nnn (R149): the sum is not reduced modulo 0x1000. -/
def execJpV0 (nnn : Addr12) (s : State) : Host.Outcome State Fault Refusal :=
  .next (s.setPc (addrWord nnn + byteWord (s.getV 0)))

end Sys2Proof.Machine
end

