-- ==== Sys2Proof/Machine/Display.lean ====
section
/-! DEFINITION. The display instructions (40_display.md) and the pixels of the display (R31 of 10_state.md). -/

namespace Sys2Proof.Machine

/-- Pixel (px, py) (R31). -/
def Screen.pixel (d : Screen) (px : Fin 64) (py : Fin 32) : Bool := d[py].getLsbD px.val

/-- `D[i]`, with pixel (x, y) at index x + 64·y (R31). -/
def Screen.bit (d : Screen) (i : Fin 2048) : Bool :=
  d.pixel ⟨i.val % 64, by omega⟩ ⟨i.val / 64, by omega⟩

/-- XOR pixel (px, py) with 1 (R121). -/
def Screen.flip (d : Screen) (px : Fin 64) (py : Fin 32) : Screen :=
  d.set py (d[py] ^^^ (1#64 <<< px.val))

/-- Every pixel 0 (R120). -/
def Screen.clear : Screen := Vector.replicate 32 0

/-- `Place(cx, cy)` (R122, D11, log 27): the pixel a sprite's bit falls on, if it is visible. -/
def place (edge : SpriteEdge) (cx cy : Nat) : Option (Fin 64 × Fin 32) :=
  match edge with
  | .wrap => some (⟨cx % 64, by omega⟩, ⟨cy % 32, by omega⟩)
  | .clip => if h : cx < 64 ∧ cy < 32 then some (⟨cx, h.1⟩, ⟨cy, h.2⟩) else none

/-- The coordinates of the set bits of one sprite row, from the left: bit col is bit 7 - col of the byte
(R123, D12, log 14). -/
def rowBits (xs cy : Nat) (b : Byte) : List (Nat × Nat) :=
  ((List.range 8).filter fun col => b.getLsbD (7 - col)).map fun col => (xs + col, cy)

/-- The coordinates of the set bits of a sprite's rows, from the top, in the order of R121's loops. -/
def spriteBits (xs : Nat) : Nat → List Byte → List (Nat × Nat)
  | _, [] => []
  | cy, b :: rest => rowBits xs cy b ++ spriteBits xs (cy + 1) rest

/-- The display during a draw, and whether a set pixel has been cleared (`c` of R121). -/
structure Canvas where
  screen : Screen
  hit    : Bool
  deriving DecidableEq, Repr

/-- One set bit of a sprite (R121). -/
def Canvas.draw (edge : SpriteEdge) (c : Canvas) (bit : Nat × Nat) : Canvas :=
  match place edge bit.1 bit.2 with
  | some (px, py) => ⟨c.screen.flip px py, c.hit || c.screen.pixel px py⟩
  | none => c

/-- All the set bits of a sprite, in order (R121). -/
def Canvas.drawAll (edge : SpriteEdge) (c : Canvas) (bits : List (Nat × Nat)) : Canvas :=
  bits.foldl (Canvas.draw edge) c

/-- The draw of R121 with its rows already read: `rows` at (`xs`, `ys`) on the state's display. -/
def State.sprite (s : State) (xs ys : Byte) (rows : List Byte) : Canvas :=
  Canvas.drawAll s.cfg.spriteEdge ⟨s.display, false⟩ (spriteBits xs.toNat ys.toNat rows)

/-- CLS (R120). -/
def execCls (s : State) : Host.Outcome State Fault Refusal :=
  .next (s.showScreen Screen.clear).next

/-- DRW Vx, Vy, n (R121): the collision flag is the last write to a register. -/
def execDrw (x y : Reg) (n : Fin 16) (s : State) : Host.Outcome State Fault Refusal :=
  .next (s.withAccess n.val fun s =>
    let c := s.sprite (s.getV x) (s.getV y) (s.mem.readBytes (s.ea 0) n.val)
    ((s.showScreen c.screen).setFlag c.hit).next)

end Sys2Proof.Machine
end

