-- ==== Sys2Proof/Machine/Index.lean ====
section
/-! DEFINITION. The index register and memory instructions (43_index_memory.md). -/

namespace Sys2Proof.Machine

/-- LD I, nnn (R210). -/
def execLdINnn (nnn : Addr12) (s : State) : Host.Outcome State Fault Refusal :=
  .next (s.setI (addrWord nnn)).next

/-- ADD I, Vx (R211): the sum modulo 2^16, and VF from the untruncated sum. -/
def execAddIVx (x : Reg) (s : State) : Host.Outcome State Fault Refusal :=
  .next ((s.setI (s.i + byteWord (s.getV x))).setFlag (rangeFlag s.i (s.getV x))).next

/-- LD F, Vx (R212): V[x] is not masked to 4 bits. -/
def execLdFVx (x : Reg) (s : State) : Host.Outcome State Fault Refusal :=
  .next (s.setI (glyphAddr (s.getV x))).next

/-- LD B, Vx (R213). -/
def execLdBVx (x : Reg) (s : State) : Host.Outcome State Fault Refusal :=
  .next (s.withAccess 3 fun s => (s.setMem (s.mem.writeBytes (s.ea 0) (decimalDigits (s.getV x)))).next)

/-- LD [I], Vx (R214). -/
def execLdMemVx (x : Reg) (s : State) : Host.Outcome State Fault Refusal :=
  .next (s.withAccess (x.val + 1) fun s =>
    ((s.setMem (s.mem.writeBytes (s.ea 0) (s.regsUpTo x))).advanceI x).next)

/-- LD Vx, [I] (R215). -/
def execLdVxMem (x : Reg) (s : State) : Host.Outcome State Fault Refusal :=
  .next (s.withAccess (x.val + 1) fun s => ((s.loadRegs x).advanceI x).next)

end Sys2Proof.Machine
end

