-- ==== Sys2Proof/Machine/Keys.lean ====
section
/-! DEFINITION. The keypad and timer instructions (44_keys_timers.md). -/

namespace Sys2Proof.Machine

/-- Skip on the state of the key V[x] names, or raise KEY_RANGE (R240, R241, D10). -/
def State.skipOnKey (s : State) (x : Reg) (pressed : Bool) : State :=
  match s.keyOperand x with
  | some k => s.skipIf (s.keyFlag k == pressed)
  | none => s.raise .keyRange (byteWord (s.getV x))

/-- SKP Vx (R240). -/
def execSkp (x : Reg) (s : State) : Host.Outcome State Fault Refusal :=
  .next (s.skipOnKey x true)

/-- SKNP Vx (R241). -/
def execSknp (x : Reg) (s : State) : Host.Outcome State Fault Refusal :=
  .next (s.skipOnKey x false)

/-- LD Vx, DT (R242). -/
def execLdVxDt (x : Reg) (s : State) : Host.Outcome State Fault Refusal :=
  .next (s.setV x s.dt).next

/-- LD Vx, K (R245): begin to wait; PC still addresses this instruction and V[x] is not yet written. The
wait is completed by the `setKey` event (R246, Machine/Events.lean). -/
def execLdVxK (x : Reg) (s : State) : Host.Outcome State Fault Refusal :=
  .next (s.setWait (some x))

/-- LD DT, Vx (R247). -/
def execLdDtVx (x : Reg) (s : State) : Host.Outcome State Fault Refusal :=
  .next (s.setDt (s.getV x)).next

/-- LD ST, Vx (R248). -/
def execLdStVx (x : Reg) (s : State) : Host.Outcome State Fault Refusal :=
  .next (s.setSt (s.getV x)).next

end Sys2Proof.Machine
end

