-- ==== Sys2Proof/Machine/Step.lean ====
section
/-! DEFINITION. One step, the instruction cycle of R90 (30_encoding.md). -/

namespace Sys2Proof.Machine

/-- `Step()` (R90): nothing while held (R91); a fault where PC cannot be fetched (R92); otherwise fetch,
decode, execute, and the `per_step` tick of a completed step. -/
def step (s : State) : Host.Outcome State Fault Refusal :=
  if s.held then .next s
  else
    match s.fetch with
    | none => .next (s.raise .fetchRange s.pc)
    | some op =>
      match decode op with
      | .unsupported w => .next (s.skipUnsupported w).endStep
      | .instr i =>
        match exec i s with
        | .next t => .next t.endStep
        | .fault r => .fault r
        | .refused r => .refused r

/-- The state with one instruction word, numbered as the opcode table numbers it, placed where the next step
fetches, and the machine able to fetch it (log 12). -/
def State.withFetchWord (s : State) (nbits w : Nat) : State := s.placeWord (tableWord nbits w)

end Sys2Proof.Machine
end

