-- ==== Sys2Proof/Machine/Events.lean ====
section
/-! DEFINITION. The host's events and reads (R285-R291 of 60_exceptions.md, R246 of 44_keys_timers.md, R300 of
70_reset_and_hazards.md). Each event is one atomic transition between steps; the host may take them in any order (log 10). -/

namespace Sys2Proof.Machine

/-- The end of the FX0A wait for register `x`, by key `k` (R246): V[x] takes the key, the wait ends, PC
advances, and under `per_step` the deferred tick happens (D18, log 22). -/
def State.completeWait (s : State) (x : Reg) (k : Key) : State :=
  (((s.setV x (natByte k.val)).setWait none).next).stepTick

/-- `setKey(k, pressed)` (R286): it ends a wait only on a transition from released to pressed. -/
def State.setKey (s : State) (k : Key) (pressed : Bool) : State :=
  match s.wait with
  | some x =>
    if pressed && !s.keyFlag k then (s.setKeyFlag k pressed).completeWait x k
    else s.setKeyFlag k pressed
  | none => s.setKeyFlag k pressed

/-- `tick60()` (R291): a tick under `external_tick`, nothing under `per_step`. -/
def State.tick60 (s : State) : State :=
  match s.cfg.timerMode with
  | .externalTick => s.tick
  | .perStep => s

/-- `clearRedraw()` (R287). -/
def State.clearRedraw (s : State) : State := s.clearRp

/-- `PROG_BASE` (R6). -/
def progBase : Nat := 0x200

/-- `loadProgram(b)` (R288): the answer to the host, and the state. -/
def State.loadProgram (s : State) (b : List Byte) : LoadResult × State :=
  if programOk b then (.ok, s.setMem (s.mem.writeBytes progBase b)) else (.rejectOversize, s)

/-! ## Reads (R289): functions of the state -/

/-- `getDisplayBuffer`: D (R289). -/
def State.getDisplayBuffer (s : State) : Screen := s.display

/-- `isRedrawPending`: RP (R289). -/
def State.isRedrawPending (s : State) : Bool := s.rp

/-- The derived output `soundActive = (ST != 0)` (R250). -/
def State.soundActive (s : State) : Bool := s.st != 0

/-- "awaiting key for register X": W (R35, R289). -/
def State.awaitingKey (s : State) : Option Reg := s.wait

/-- The fault register F (R36, R289). -/
def State.faultRegister (s : State) : Option FaultRecord := s.fault

/-! ## Schedules -/

/-- One event (R285). -/
def applyEvent (e : Event) (s : State) : Host.Outcome State Fault Refusal :=
  match e with
  | .step => step s
  | .tick60 => .next s.tick60
  | .setKey k p => .next (s.setKey k p)
  | .clearRedraw => .next s.clearRedraw
  | .loadProgram b => .next (s.loadProgram b).2
  | .reset => .next s.resetEvent

/-- A schedule of events, one after another (R72 of 20_memory.md). -/
def runEvents : List Event → State → Host.Outcome State Fault Refusal
  | [], s => .next s
  | e :: rest, s =>
    match applyEvent e s with
    | .next t => runEvents rest t
    | .fault r => .fault r
    | .refused r => .refused r

end Sys2Proof.Machine
end

