-- ==== Sys2Proof/Safety.lean ====
section
/-! DEFINITION. What claims call a sound state, a final state and a reachable state. -/

namespace Sys2Proof.Machine

/-- The invariant of the machine. Memory is in canonical form (log 4). PC is at most 0x10FE, the largest PC
write of R26, and every stack entry is the address of a CALL that was fetched, so at most 0xFFE (R92, R143).
A waiting core is not faulted and stands at a fetchable FX0A (R91, R245), and F records the PC, which does not
move while the core is faulted (R272, R274). -/
structure State.Inv (s : State) : Prop where
  memWf : s.mem.wf = true
  pcMax : s.pc.toNat ≤ 0x10FE
  stackMax : ∀ j : Fin 16, (s.stackAt j).toNat ≤ 0xFFE
  waitPc : s.wait ≠ none → s.pc.toNat ≤ 0xFFE ∧ s.fault = none
  faultPc : ∀ r, s.fault = some r → r.pc = s.pc

/-- A final state by R306 (D39, log 30): the core is faulted, or the word at PC is a jump to itself. It does
not say that the host stops stepping, that ticks have stopped, or that the display has been rendered. -/
def State.final (s : State) : Bool :=
  s.fault.isSome ||
    match s.fetch with
    | some op =>
      match decode op with
      | .instr (.jp nnn) => addrWord nnn == s.pc
      | _ => false
    | none => false

/-- A state some schedule of events reaches from a creation state (R285, R300). -/
def State.Reachable (s : State) : Prop :=
  ∃ (p : Params) (es : List Event), runEvents es (State.resetWith p) = .next s

end Sys2Proof.Machine
end

