-- ==== Sys2Proof/Certificates/Slice0/Obligations.lean ====
section
/-! DEFINITION. The statements for the provers. Each docstring cites the sentence of the spec it formalises. Where a
statement rests on a decision the spec marks as its own (D<n> of 92_eei_decisions.md) or on a choice of this model (log
<n>, notes/assumptions), its docstring says so. -/

namespace Sys2Proof.Claims

open Sys2Proof.Machine

/-! ## Frames: what a statement says is left alone -/

/-- What may change besides PC: the general registers listed, and the parts whose flag is true. -/
structure Writes where
  regs    : List Reg := []
  i       : Bool := false
  mem     : Bool := false
  stack   : Bool := false
  dt      : Bool := false
  st      : Bool := false
  screen  : Bool := false
  wait    : Bool := false
  fault   : Bool := false
  draws   : Bool := false
  reports : Bool := false

/-- `t` is `s` but for PC and what `w` names: every other general register, I, every byte of memory, the stack, the
timers, every pixel and the redraw flag, W, F, and the model's own fields are unchanged. The keypad and the
parameters have no flag: no instruction changes them (R30, R8). -/
structure Kept (w : Writes) (s t : State) : Prop where
  regs    : ∀ r, r ∉ w.regs → t.getV r = s.getV r
  i       : w.i = false → t.i = s.i
  mem     : w.mem = false → ∀ a, t.mem.read a = s.mem.read a
  stack   : w.stack = false → t.sp = s.sp ∧ ∀ j, t.stackAt j = s.stackAt j
  dt      : w.dt = false → t.dt = s.dt
  st      : w.st = false → t.st = s.st
  screen  : w.screen = false → (∀ px py, t.display.pixel px py = s.display.pixel px py) ∧ t.rp = s.rp
  keys    : ∀ k, t.keyFlag k = s.keyFlag k
  wait    : w.wait = false → t.wait = s.wait
  fault   : w.fault = false → t.fault = s.fault
  draws   : w.draws = false → t.draws = s.draws
  reports : w.reports = false → t.reports = s.reports
  cfg     : t.cfg = s.cfg

/-- The bytes of memory outside the `n` bytes at `a` are unchanged. -/
def MemKeptOutside (s t : State) (a n : Nat) : Prop :=
  ∀ b, b < a ∨ a + n ≤ b → t.mem.read b = s.mem.read b

/-- The register that 8XY6 and 8XYE shift (R178, R180). -/
def shiftedReg (s : State) (x y : Reg) : Reg :=
  match s.cfg.shiftSource with
  | .vx => x
  | .vy => y

/-- The draw of DXYN has a set bit that falls on pixel (px, py): bit col, counted from the left, of the row at I + r, at
column V[x] + col and row V[y] + r, modulo 64 and 32 under `wrap` and exactly under `clip` (R121-R123). -/
def spriteCovers (s : State) (x y : Reg) (n : Nat) (px : Fin 64) (py : Fin 32) : Prop :=
  ∃ r < n, ∃ col < 8, (s.mem.read (s.i.toNat + r)).getLsbD (7 - col) = true ∧
    match s.cfg.spriteEdge with
    | .wrap => px.val = ((s.getV x).toNat + col) % 64 ∧ py.val = ((s.getV y).toNat + r) % 32
    | .clip => px.val = (s.getV x).toNat + col ∧ py.val = (s.getV y).toNat + r

/-- What each instruction may write besides PC (R23, R27-R32, R61, R76 and each instruction's rule). FX55 and FX65
write I only under `LOADSTORE_INCREMENTS_I`; a stack error, a bad key and a bad address write F or a report. -/
def writesOf (p : Params) : Instr → Writes
  | .cls => { screen := true }
  | .ret => { stack := true, fault := true, reports := true }
  | .jp _ => {}
  | .call _ => { stack := true, fault := true, reports := true }
  | .seVxNn _ _ => {}
  | .sneVxNn _ _ => {}
  | .seVxVy _ _ => {}
  | .ldVxNn x _ => { regs := [x] }
  | .addVxNn x _ => { regs := [x] }
  | .ldVxVy x _ => { regs := [x] }
  | .orVxVy x _ => { regs := [x] }
  | .andVxVy x _ => { regs := [x] }
  | .xorVxVy x _ => { regs := [x] }
  | .addVxVy x _ => { regs := [x, 0xF] }
  | .sub x _ => { regs := [x, 0xF] }
  | .shr x _ => { regs := [x, 0xF] }
  | .subn x _ => { regs := [x, 0xF] }
  | .shl x _ => { regs := [x, 0xF] }
  | .sneVxVy _ _ => {}
  | .ldINnn _ => { i := true }
  | .jpV0 _ => {}
  | .rnd x _ => { regs := [x], draws := true }
  | .drw _ _ _ => { regs := [0xF], screen := true, fault := true }
  | .skp _ => { fault := true }
  | .sknp _ => { fault := true }
  | .ldVxDt x => { regs := [x] }
  | .ldVxK _ => { wait := true }
  | .ldDtVx _ => { dt := true }
  | .ldStVx _ => { st := true }
  | .addIVx _ => { regs := [0xF], i := true }
  | .ldFVx _ => { i := true }
  | .ldBVx _ => { mem := true, fault := true }
  | .ldMemVx _ => { mem := true, i := p.loadStoreIncrementsI, fault := true }
  | .ldVxMem x =>
    { regs := (List.finRange 16).filter (fun r => decide (r ≤ x)), i := p.loadStoreIncrementsI, fault := true }

/-- The instructions that define a flag (R22). -/
def writesFlag : Instr → Bool
  | .addVxVy _ _ | .sub _ _ | .shr _ _ | .subn _ _ | .shl _ _ | .drw _ _ _ | .addIVx _ => true
  | .cls | .ret | .jp _ | .call _ | .seVxNn _ _ | .sneVxNn _ _ | .seVxVy _ _ | .ldVxNn _ _ | .addVxNn _ _ => false
  | .ldVxVy _ _ | .orVxVy _ _ | .andVxVy _ _ | .xorVxVy _ _ | .sneVxVy _ _ | .ldINnn _ | .jpV0 _ | .rnd _ _ => false
  | .skp _ | .sknp _ | .ldVxDt _ | .ldVxK _ | .ldDtVx _ | .ldStVx _ | .ldFVx _ | .ldBVx _ | .ldMemVx _ | .ldVxMem _ => false

/-- How many bytes at I an instruction accesses (R61, R216). -/
def dataBytes : Instr → Nat
  | .drw _ _ n => n.val
  | .ldBVx _ => 3
  | .ldMemVx x => x.val + 1
  | .ldVxMem x => x.val + 1
  | .cls | .ret | .jp _ | .call _ | .seVxNn _ _ | .sneVxNn _ _ | .seVxVy _ _ | .ldVxNn _ _ | .addVxNn _ _ => 0
  | .ldVxVy _ _ | .orVxVy _ _ | .andVxVy _ _ | .xorVxVy _ _ | .addVxVy _ _ | .sub _ _ | .shr _ _ | .subn _ _ => 0
  | .shl _ _ | .sneVxVy _ _ | .ldINnn _ | .jpV0 _ | .rnd _ _ | .skp _ | .sknp _ | .ldVxDt _ | .ldVxK _ | .ldDtVx _ => 0
  | .ldStVx _ | .addIVx _ | .ldFVx _ => 0

/-- The row of the fault table (R271) that a fault raised by instruction `i` in state `s` belongs to: the condition of
its cause, and the info recorded. -/
def faultRow (i : Instr) (s : State) (cause : FaultCause) (info : Word) : Prop :=
  match cause with
  | .fetchRange => False
  | .memRange => dataBytes i ≠ 0 ∧ 0xFFF < s.i.toNat + (dataBytes i - 1) ∧ info.toNat = max s.i.toNat 0x1000
  | .keyRange => ∃ x, (i = .skp x ∨ i = .sknp x) ∧ 0xF < (s.getV x).toNat ∧ info.toNat = (s.getV x).toNat
  | .stackUnderflow => i = .ret ∧ s.cfg.stackPolicy = .fault ∧ s.sp.val = 0 ∧ info = 0
  | .stackOverflow => (∃ nnn, i = .call nnn) ∧ s.cfg.stackPolicy = .fault ∧ s.sp.val = 16 ∧ info = 0

end Sys2Proof.Claims

open Sys2Proof Sys2Proof.Machine Sys2Proof.Claims

/-! ## Encoding (30_encoding.md) -/

/-- Decode of encode is the instruction, for every instruction (all are well-formed) and every operand value, read as a
word and as the two bytes of a longer byte string. -/
def Obligations.DecodeOfEncodeIsTheInstruction : Prop :=
  ∀ (i : Instr) (rest : List Byte), i.wellFormed = true →
    decode (encode i) = .instr i ∧ decodeBytes (encodeBytes i ++ rest) = some (.instr i, rest)

/-- A word that decodes to an instruction is that instruction's encoding: no bit of the word is ignored (R94: every bit is
fixed or a field). Derived from R94 and R96. -/
def Obligations.DecodedWordIsTheEncoding : Prop :=
  ∀ (op : Word) (i : Instr), decode op = .instr i → encode i = op

/-- "A word decodes to an instruction only when (op & mask) = match for that instruction's row of rule R96. Every other
word is Unsupported." The sentence is R98's, strict decode by the spec's decision D17; the words are handed back. -/
def Obligations.DecodeAcceptsExactlyTheTablesWords : Prop :=
  ∀ op : Word,
    ((∃ row ∈ opcodeTable, op &&& row.mask = row.value) ↔ ∃ i, decode op = .instr i) ∧
    (∀ i, decode op = .instr i → i.row ∈ opcodeTable ∧ op &&& i.row.mask = i.row.value) ∧
    ((∀ row ∈ opcodeTable, op &&& row.mask ≠ row.value) → decode op = .unsupported op)

/-- "The 34 rows do not overlap: no 16-bit word matches two rows." (R96; the sub-codes of family 8 are decision D34.) -/
def Obligations.NoWordMatchesTwoTableRows : Prop :=
  opcodeTable.length = 34 ∧ ∀ (op : Word) (j k : Nat) (hj : j < opcodeTable.length) (hk : k < opcodeTable.length),
    op &&& opcodeTable[j].mask = opcodeTable[j].value → op &&& opcodeTable[k].mask = opcodeTable[k].value → j = k

/-- A few words, written out from the patterns of R96, decode to the instructions they stand for. -/
def Obligations.WrittenOutWordsDecode : Prop :=
  decode 0x00E0 = .instr .cls ∧ decode 0x2210 = .instr (.call 0x210) ∧ decode 0x8235 = .instr (.sub 2 3) ∧
  decode 0xD125 = .instr (.drw 1 2 5) ∧ decode 0xE59E = .instr (.skp 5) ∧ decode 0xF355 = .instr (.ldMemVx 3) ∧
  decode 0x0123 = .unsupported 0x0123

/-! ## The instruction cycle (30_encoding.md) -/

/-- "Instruction fetch is big-endian": the fetch of R64 reads the bytes at PC and PC + 1, and the byte at the lower address
is op[15:8]. -/
def Obligations.FetchIsBigEndian : Prop :=
  ∀ s : State, s.pc.toNat + 1 ≤ 0xFFF →
    ∃ op, s.fetch = some op ∧
      op.toNat = (s.mem.read s.pc.toNat).toNat * 256 + (s.mem.read (s.pc.toNat + 1)).toNat ∧
      op.extractLsb' 8 8 = s.mem.read s.pc.toNat ∧ op.extractLsb' 0 8 = s.mem.read (s.pc.toNat + 1)

/-- A step runs the decoded instruction. When the machine is not held and the bytes at PC decode to `i`, the step is `exec i`
and then, under `per_step`, the tick of R90 unless the instruction faulted or began to wait (decision D32). -/
def Obligations.StepRunsTheDecodedInstruction : Prop :=
  ∀ (s : State) (i : Instr), s.fault = none → s.wait = none → s.pc.toNat + 1 ≤ 0xFFF →
    decode (wordOfBytes (s.mem.read s.pc.toNat) (s.mem.read (s.pc.toNat + 1))) = .instr i →
    step s =
      match exec i s with
      | .next t =>
        .next (if t.cfg.timerMode = .perStep ∧ t.fault = none ∧ t.wait = none then t.tick else t)
      | .fault r => .fault r
      | .refused r => .refused r

/-- "Any opcode whose sub-code is not listed reports "unsupported opcode" and advances PC by 2", with the payload PC, op.
R99: nothing else changes but by the `per_step` tick that ends the step. -/
def Obligations.UnsupportedWordIsReportedAndSkipped : Prop :=
  ∀ (s : State) (op : Word), s.fault = none → s.wait = none → s.fetch = some op → decode op = .unsupported op →
    ∃ t, step s = .next t ∧ t.pc = s.pc + 2 ∧ t.reports = .unsupportedOpcode s.pc op :: s.reports ∧
      Kept { reports := true, dt := true, st := true } s t ∧
      (s.cfg.timerMode = .externalTick → t.dt = s.dt ∧ t.st = s.st) ∧
      (s.cfg.timerMode = .perStep → t.dt.toNat = s.dt.toNat - 1 ∧ t.st.toNat = s.st.toNat - 1)

/-- If PC + 1 > 0xFFF the step faults FETCH_RANGE with pc and info PC, and no state other than F changes. R92; the fault
is the spec's decision D3. -/
def Obligations.FetchBeyondMemoryFaults : Prop :=
  ∀ s : State, s.fault = none → s.wait = none → 0xFFF < s.pc.toNat + 1 →
    step s = .next { s with fault := some ⟨.fetchRange, s.pc, s.pc⟩ }

/-- "A step that starts while the core is faulted (F ≠ none) or waiting for a key (W ≠ none) changes nothing." R91; the
spec's decision D37, followed by log 9. -/
def Obligations.HeldStepChangesNothing : Prop :=
  ∀ s : State, s.fault ≠ none ∨ s.wait ≠ none → step s = .next s

/-- No instruction and no schedule of events ends in a fault outcome or a refusal. That nothing stops is this model's choice:
a fault of the spec is a next state with F set (log 8), and a step event in a held state is the step of D37 that changes
nothing, where the spec lets a model give no step (log 9). -/
def Obligations.EveryScheduleAnswersNext : Prop :=
  (∀ (i : Instr) (s : State), ∃ t, exec i s = .next t) ∧
  ∀ (es : List Event) (s : State), ∃ t, runEvents es s = .next t

/-! ## The invariant -/

/-- Every creation state, under every choice of the parameters (`FONT` included), satisfies the invariant, and the
model's reset state is the one with the default parameters. -/
def Obligations.CreationStatesSatisfyInv : Prop :=
  (∀ p : Params, (State.resetWith p).Inv) ∧ State.resetWith defaultParams = State.reset ∧ State.reset.Inv

/-- A step from any state that satisfies the invariant gives one that does: memory stays in canonical form, and no PC
write exceeds 0x10FE, the largest of R26. -/
def Obligations.StepKeepsInv : Prop :=
  ∀ s t : State, s.Inv → step s = .next t → t.Inv

/-- Whatever the host does, in whatever order, every state the machine reaches satisfies the invariant (R285, D28). -/
def Obligations.ReachableStatesSatisfyInv : Prop :=
  ∀ s : State, s.Reachable → s.Inv

/-! ## Faults and reports (60_exceptions.md) -/

/-- Every fault is precise: the state after a fault is the state before the step plus F, whose pc is the PC. R272 and R273;
the fault mechanism is the spec's decision D2. -/
def Obligations.EveryFaultIsPrecise : Prop :=
  ∀ (s t : State) (r : FaultRecord), s.fault = none → step s = .next t → t.fault = some r →
    r.pc = s.pc ∧ t = { s with fault := some r }

/-- A step that faults has one of the causes of R271's table, under its condition and with its info. Decision D2. -/
def Obligations.FaultsFollowTheCauseTable : Prop :=
  ∀ (s t : State) (r : FaultRecord), s.fault = none → step s = .next t → t.fault = some r →
    (r.cause = .fetchRange ∧ 0xFFF < s.pc.toNat + 1 ∧ r.info = s.pc) ∨
    (s.pc.toNat + 1 ≤ 0xFFF ∧ ∃ i, decode (s.mem.wordAt s.pc.toNat) = .instr i ∧ faultRow i s r.cause r.info)

/-- Only reset clears F (R274), and while F is set no event but reset changes it. The host events that still act are the
spec's decision D30, and the reset event its decision D21. -/
def Obligations.OnlyResetClearsFault : Prop :=
  ∀ (e : Event) (s t : State) (r : FaultRecord), s.fault = some r → applyEvent e s = .next t →
    (e = .reset ∧ t.fault = none) ∨ (e ≠ .reset ∧ t.fault = some r)

/-- A step raises at most one fault or one report, never both (R275, derived by the spec from R271 and R272). That reports
are kept in a list is this model's choice (log 7). -/
def Obligations.StepEmitsAtMostOneReportOrFault : Prop :=
  ∀ s t : State, step s = .next t →
    (t.reports = s.reports ∨ ∃ r, t.reports = r :: s.reports) ∧ (t.fault ≠ s.fault → t.reports = s.reports)

/-! ## Promises about all instructions -/

/-- No instruction writes anything but PC and what its row of `writesOf` names: only CLS and DRW the display, only FX33 and
FX55 memory, only CALL and RET the stack, none the keypad. Derived from R23, R27-R32 and R61. -/
def Obligations.InstructionsWriteOnlyWhatTheyName : Prop :=
  ∀ (i : Instr) (s t : State), exec i s = .next t → Kept (writesOf s.cfg i) s t

/-- "After each of them, VF holds the flag, 0x00 or 0x01, even when the instruction also named VF as its destination (X =
F)." R22, decision D15. -/
def Obligations.FlagInstructionsLeaveZeroOrOne : Prop :=
  ∀ (i : Instr) (s t : State), writesFlag i = true → exec i s = .next t →
    (dataBytes i = 0 ∨ s.i.toNat + (dataBytes i - 1) ≤ 0xFFF) → (t.getV 0xF).toNat ≤ 1

/-- A final state of R306 stays one, with PC, registers, memory and display as they are; only the timers may run. The
definition of final is the spec's decision D39. -/
def Obligations.FinalStatesStayFinal : Prop :=
  ∀ s : State, s.final = true →
    ∃ t, step s = .next t ∧ t.final = true ∧ t.pc = s.pc ∧ Kept { dt := true, st := true } s t

/-! ## Display (40_display.md) -/

/-- "Clear displayBuffer to all-zero; set redrawPending; advance PC by 2" (R120). VF, registers, I and memory are kept. -/
def Obligations.ClsClearsEveryPixel : Prop :=
  (encode .cls).toNat = 0x00E0 ∧
  ∀ s : State, ∃ t, exec .cls s = .next t ∧ (∀ i, t.display.bit i = false) ∧
    (∀ px py, t.display.pixel px py = false) ∧ t.rp = true ∧ t.pc = s.pc + 2 ∧ Kept { screen := true } s t

/-- The draw of R121-R123: each pixel is XORed with the sprite's cover of it, VF becomes 1 if a set pixel was cleared
and 0 otherwise, RP is set, for every n (0 included) whose bytes exist. It rests on the spec's decisions D11 (edge) and
D12 (bit order, log 14). -/
def Obligations.DrwXorsTheSpriteAndReportsCollision : Prop :=
  ∀ (x y : Reg) (n : Fin 16) (s : State), n.val = 0 ∨ s.i.toNat + (n.val - 1) ≤ 0xFFF →
    ∃ t, exec (.drw x y n) s = .next t ∧
      (∀ px py, t.display.pixel px py = true ↔
        ¬ (s.display.pixel px py = true ↔ spriteCovers s x y n.val px py)) ∧
      ((∃ px py, spriteCovers s x y n.val px py ∧ s.display.pixel px py = true) → t.getV 0xF = 1) ∧
      ((¬ ∃ px py, spriteCovers s x y n.val px py ∧ s.display.pixel px py = true) → t.getV 0xF = 0) ∧
      t.rp = true ∧ t.pc = s.pc + 2 ∧ Kept { regs := [0xF], screen := true } s t

/-- "Drawing two overlapping identical sprites via DXYN twice restores the original buffer (XOR idempotence)": W8, whenever
the first draw leaves both coordinates as they were, which it does when neither is VF. The second draw reports VF = 1 exactly
when the first set a pixel, so whenever a visible bit fell on a pixel that was 0 (on a clear display: whenever the sprite has a
visible bit); R121's corner case says more than its pseudocode gives (log 33). -/
def Obligations.DrwTwiceRestoresTheDisplay : Prop :=
  ∀ (x y : Reg) (n : Fin 16) (s : State), n.val = 0 ∨ s.i.toNat + (n.val - 1) ≤ 0xFFF →
    ∃ t, exec (.drw x y n) s = .next t ∧ (x ≠ 0xF → t.getV x = s.getV x) ∧ (y ≠ 0xF → t.getV y = s.getV y) ∧
      (t.getV x = s.getV x → t.getV y = s.getV y →
        ∃ u, exec (.drw x y n) t = .next u ∧ (∀ px py, u.display.pixel px py = s.display.pixel px py) ∧
          ((∃ px py, spriteCovers s x y n.val px py ∧ s.display.pixel px py = false) ↔ u.getV 0xF = 1))

/-! ## Accesses outside memory (20_memory.md) -/

/-- DXYN, FX33, FX55 and FX65 check their highest address before any effect: where it is above 0xFFF they raise MEM_RANGE
with the first address above 0xFFF, and write nothing else. R63, decision D4. -/
def Obligations.AccessAboveMemoryFaults : Prop :=
  ∀ (i : Instr) (s : State), dataBytes i ≠ 0 → 0xFFF < s.i.toNat + (dataBytes i - 1) →
    ∃ info : Word, info.toNat = max s.i.toNat 0x1000 ∧
      exec i s = .next { s with fault := some ⟨.memRange, s.pc, info⟩ }

/-! ## Control transfer (41_control.md) -/

/-- "Pop callStack into PC (stackPointer−1 then read); advance PC by 2 after restoring" (R140, SP not 0). The entry popped
is not cleared. -/
def Obligations.RetGoesPastTheCall : Prop :=
  (encode .ret).toNat = 0x00EE ∧
  ∀ (s : State) (h : s.sp.val ≠ 0), ∃ t, exec .ret s = .next t ∧ t.sp.val = s.sp.val - 1 ∧
    t.pc = s.stackAt ⟨s.sp.val - 1, by omega⟩ + 2 ∧ (∀ j, t.stackAt j = s.stackAt j) ∧ Kept { stack := true } s t

/-- RET with SP = 0: under `report` it reports STACK_UNDERFLOW and goes on at PC + 2 with SP and S unchanged, under `fault`
it raises STACK_UNDERFLOW with info 0. R141, decision D8. -/
def Obligations.RetOnEmptyStackFollowsThePolicy : Prop :=
  ∀ s : State, s.sp.val = 0 →
    (s.cfg.stackPolicy = .report → ∃ t, exec .ret s = .next t ∧ t.pc = s.pc + 2 ∧
      t.reports = .stackUnderflow s.pc :: s.reports ∧ Kept { reports := true } s t) ∧
    (s.cfg.stackPolicy = .fault → exec .ret s = .next { s with fault := some ⟨.stackUnderflow, s.pc, 0⟩ })

/-- CALL with SP not 16: "push PC onto callStack at stackPointer, increment stackPointer, PC := NNN" (R143); the address
pushed is the CALL's own. Stated with the stack widths of decision D24. -/
def Obligations.CallPushesItsOwnAddress : Prop :=
  ∀ (nnn : Addr12) (s : State) (h : s.sp.val ≠ 16), ∃ t, exec (.call nnn) s = .next t ∧ t.sp.val = s.sp.val + 1 ∧
    t.stackAt ⟨s.sp.val, by omega⟩ = s.pc ∧ (∀ j : Fin 16, j.val ≠ s.sp.val → t.stackAt j = s.stackAt j) ∧
    t.pc.toNat = nnn.toNat ∧ Kept { stack := true } s t

/-- CALL with SP = 16: under `report` it reports STACK_OVERFLOW, makes no push and goes on at PC + 2, under `fault` it
raises STACK_OVERFLOW with info 0. R143, decision D9. -/
def Obligations.CallOnFullStackFollowsThePolicy : Prop :=
  ∀ (nnn : Addr12) (s : State), s.sp.val = 16 →
    (s.cfg.stackPolicy = .report → ∃ t, exec (.call nnn) s = .next t ∧ t.pc = s.pc + 2 ∧
      t.reports = .stackOverflow s.pc :: s.reports ∧ Kept { reports := true } s t) ∧
    (s.cfg.stackPolicy = .fault → exec (.call nnn) s = .next { s with fault := some ⟨.stackOverflow, s.pc, 0⟩ })

/-- "2NNN then 00EE: PC after the pair equals (original PC + 2), stackPointer returns to its pre-call value" (W5), and
nothing but one stack entry has changed. -/
def Obligations.CallThenRetComesBack : Prop :=
  ∀ (nnn : Addr12) (s : State), s.sp.val ≠ 16 →
    ∃ t u, exec (.call nnn) s = .next t ∧ exec .ret t = .next u ∧ u.pc = s.pc + 2 ∧ u.sp = s.sp ∧
      Kept { stack := true } s u

/-- "PC := NNN (no auto-advance)" (R142) and "PC := NNN + V[0] (no auto-advance)", a sum not reduced modulo 0x1000
(R149). -/
def Obligations.JumpsSetPc : Prop :=
  ∀ (nnn : Addr12) (s : State),
    (encode (.jp nnn)).toNat = 0x1000 + nnn.toNat ∧ (encode (.jpV0 nnn)).toNat = 0xB000 + nnn.toNat ∧
    (∃ t, exec (.jp nnn) s = .next t ∧ t.pc.toNat = nnn.toNat ∧ Kept {} s t) ∧
    (∃ t, exec (.jpV0 nnn) s = .next t ∧ t.pc.toNat = nnn.toNat + (s.getV 0).toNat ∧ Kept {} s t)

/-- "PC += (V[X]==NN) ? 4 : 2" (R145) and "PC += (V[X]!=NN) ? 4 : 2" (R146). -/
def Obligations.ImmediateSkips : Prop :=
  ∀ (x : Reg) (nn : Byte) (s : State),
    (encode (.seVxNn x nn)).toNat = 0x3000 + x.val * 0x100 + nn.toNat ∧
    (encode (.sneVxNn x nn)).toNat = 0x4000 + x.val * 0x100 + nn.toNat ∧
    (∃ t, exec (.seVxNn x nn) s = .next t ∧ (s.getV x = nn → t.pc = s.pc + 4) ∧
      (s.getV x ≠ nn → t.pc = s.pc + 2) ∧ Kept {} s t) ∧
    (∃ t, exec (.sneVxNn x nn) s = .next t ∧ (s.getV x ≠ nn → t.pc = s.pc + 4) ∧
      (s.getV x = nn → t.pc = s.pc + 2) ∧ Kept {} s t)

/-- "PC += (V[X]==V[Y]) ? 4 : 2" (R147) and "PC += (V[X]!=V[Y]) ? 4 : 2" (R148). -/
def Obligations.RegisterSkips : Prop :=
  ∀ (x y : Reg) (s : State),
    (encode (.seVxVy x y)).toNat = 0x5000 + x.val * 0x100 + y.val * 0x10 ∧
    (encode (.sneVxVy x y)).toNat = 0x9000 + x.val * 0x100 + y.val * 0x10 ∧
    (∃ t, exec (.seVxVy x y) s = .next t ∧ (s.getV x = s.getV y → t.pc = s.pc + 4) ∧
      (s.getV x ≠ s.getV y → t.pc = s.pc + 2) ∧ Kept {} s t) ∧
    (∃ t, exec (.sneVxVy x y) s = .next t ∧ (s.getV x ≠ s.getV y → t.pc = s.pc + 4) ∧
      (s.getV x = s.getV y → t.pc = s.pc + 2) ∧ Kept {} s t)

/-! ## Registers and arithmetic (42_alu.md) -/

/-- "V[X] := NN; PC+=2" (R170). -/
def Obligations.LoadImmediate : Prop :=
  ∀ (x : Reg) (nn : Byte) (s : State), (encode (.ldVxNn x nn)).toNat = 0x6000 + x.val * 0x100 + nn.toNat ∧
    ∃ t, exec (.ldVxNn x nn) s = .next t ∧ t.getV x = nn ∧ t.pc = s.pc + 2 ∧ Kept { regs := [x] } s t

/-- "V[X] += NN (8-bit wraparound, no flag); PC+=2" (R171): VF is kept unless it is the destination. -/
def Obligations.AddImmediateWrapsWithoutFlag : Prop :=
  ∀ (x : Reg) (nn : Byte) (s : State), (encode (.addVxNn x nn)).toNat = 0x7000 + x.val * 0x100 + nn.toNat ∧
    ∃ t, exec (.addVxNn x nn) s = .next t ∧ (t.getV x).toNat = ((s.getV x).toNat + nn.toNat) % 256 ∧ t.pc = s.pc + 2 ∧ Kept { regs := [x] } s t

/-- 8XY0 copies V[y] (R172), and 8XY1, 8XY2, 8XY3 are OR, AND and XOR bit by bit (R173-R175); VF is kept unless x = F
(decision D14), and the sub-codes are decision D34. -/
def Obligations.CopyAndLogic : Prop :=
  ∀ (x y : Reg) (s : State),
    (∃ t, exec (.ldVxVy x y) s = .next t ∧ t.getV x = s.getV y ∧ t.pc = s.pc + 2 ∧ Kept { regs := [x] } s t) ∧
    (∃ t, exec (.orVxVy x y) s = .next t ∧
      (∀ j, (t.getV x).getLsbD j = ((s.getV x).getLsbD j || (s.getV y).getLsbD j)) ∧
      t.pc = s.pc + 2 ∧ Kept { regs := [x] } s t) ∧
    (∃ t, exec (.andVxVy x y) s = .next t ∧
      (∀ j, (t.getV x).getLsbD j = ((s.getV x).getLsbD j && (s.getV y).getLsbD j)) ∧
      t.pc = s.pc + 2 ∧ Kept { regs := [x] } s t) ∧
    (∃ t, exec (.xorVxVy x y) s = .next t ∧
      (∀ j, (t.getV x).getLsbD j = ((s.getV x).getLsbD j ^^ (s.getV y).getLsbD j)) ∧
      t.pc = s.pc + 2 ∧ Kept { regs := [x] } s t)

/-- "For all 8-bit a,b: 8XY4 sets VF=1 iff a+b>255, and V[X] becomes (a+b) mod 256." R176; that VF ends as the flag when x
= F is decision D15. -/
def Obligations.AddSetsCarry : Prop :=
  ∀ (x y : Reg) (s : State), ∃ t, exec (.addVxVy x y) s = .next t ∧
    (x ≠ 0xF → (t.getV x).toNat = ((s.getV x).toNat + (s.getV y).toNat) % 256) ∧
    (255 < (s.getV x).toNat + (s.getV y).toNat → t.getV 0xF = 1) ∧
    ((s.getV x).toNat + (s.getV y).toNat ≤ 255 → t.getV 0xF = 0) ∧
    t.pc = s.pc + 2 ∧ Kept { regs := [x, 0xF] } s t

/-- "For all 8-bit a,b: 8XY5 sets VF=0 iff a<b (borrow), V[X] becomes (a-b) mod 256" (R177), and 8XY7 the same with the
operands reversed (R179, decision D35); flag last by decision D15. -/
def Obligations.SubtractionsSetNoBorrow : Prop :=
  ∀ (x y : Reg) (s : State),
    (∃ t, exec (.sub x y) s = .next t ∧
      (x ≠ 0xF → (t.getV x).toNat = ((s.getV x).toNat + 256 - (s.getV y).toNat) % 256) ∧
      ((s.getV y).toNat ≤ (s.getV x).toNat → t.getV 0xF = 1) ∧
      ((s.getV x).toNat < (s.getV y).toNat → t.getV 0xF = 0) ∧
      t.pc = s.pc + 2 ∧ Kept { regs := [x, 0xF] } s t) ∧
    (∃ t, exec (.subn x y) s = .next t ∧
      (x ≠ 0xF → (t.getV x).toNat = ((s.getV y).toNat + 256 - (s.getV x).toNat) % 256) ∧
      ((s.getV x).toNat ≤ (s.getV y).toNat → t.getV 0xF = 1) ∧
      ((s.getV y).toNat < (s.getV x).toNat → t.getV 0xF = 0) ∧
      t.pc = s.pc + 2 ∧ Kept { regs := [x, 0xF] } s t)

/-- 8XY6 and 8XYE shift their operand by one, and VF is the bit shifted out: bit 0, bit 7 (R178, R180). The operand is V[x]
or V[y] by `SHIFT_SOURCE`, decision D13. -/
def Obligations.ShiftsPutTheLostBitInVf : Prop :=
  ∀ (x y : Reg) (s : State),
    (∃ t, exec (.shr x y) s = .next t ∧
      (x ≠ 0xF → (t.getV x).toNat = (s.getV (shiftedReg s x y)).toNat / 2) ∧
      (t.getV 0xF).toNat = (s.getV (shiftedReg s x y)).toNat % 2 ∧
      t.pc = s.pc + 2 ∧ Kept { regs := [x, 0xF] } s t) ∧
    (∃ t, exec (.shl x y) s = .next t ∧
      (x ≠ 0xF → (t.getV x).toNat = (s.getV (shiftedReg s x y)).toNat * 2 % 256) ∧
      (t.getV 0xF).toNat = (s.getV (shiftedReg s x y)).toNat / 128 ∧
      t.pc = s.pc + 2 ∧ Kept { regs := [x, 0xF] } s t)

/-- "V[X] := randomByte() & NN; PC+=2" (R182): the byte is the free value of this draw, so the statement holds for every
byte (decision D23, log 6), and each draw moves to the next; "CXNN with NN=0x00 always yields V[X]=0" (W7). -/
def Obligations.RndMasksAFreeByte : Prop :=
  ∀ (x : Reg) (nn : Byte) (s : State), ∃ (r : Byte) (t : State), r = Config.rand8 s.draws ∧
    exec (.rnd x nn) s = .next t ∧ (∀ j, (t.getV x).getLsbD j = (r.getLsbD j && nn.getLsbD j)) ∧
    (nn = 0 → t.getV x = 0) ∧ (nn = 0xFF → t.getV x = r) ∧ s.draws < t.draws ∧
    t.pc = s.pc + 2 ∧ Kept { regs := [x], draws := true } s t

/-! ## Index register and memory (43_index_memory.md) -/

/-- "I := NNN; PC+=2" (R210). -/
def Obligations.LoadIndex : Prop :=
  ∀ (nnn : Addr12) (s : State), (encode (.ldINnn nnn)).toNat = 0xA000 + nnn.toNat ∧
    ∃ t, exec (.ldINnn nnn) s = .next t ∧ t.i.toNat = nnn.toNat ∧ t.i.toNat ≤ 0xFFF ∧ t.pc = s.pc + 2 ∧ Kept { i := true } s t

/-- "I += V[X]; VF := 1 if the addition would exceed 0xFFF else 0" (R211), the sum modulo 2^16 by decision D24. -/
def Obligations.AddIndexFlagsRange : Prop :=
  ∀ (x : Reg) (s : State), ∃ t, exec (.addIVx x) s = .next t ∧
    t.i.toNat = (s.i.toNat + (s.getV x).toNat) % 65536 ∧
    (0xFFF < s.i.toNat + (s.getV x).toNat → t.getV 0xF = 1) ∧
    (s.i.toNat + (s.getV x).toNat ≤ 0xFFF → t.getV 0xF = 0) ∧
    t.pc = s.pc + 2 ∧ Kept { regs := [0xF], i := true } s t

/-- "I := V[X] * 5 (address of the built-in font glyph for digit V[X])" (R212): V[x] is not masked. -/
def Obligations.GlyphAddressIsFiveTimes : Prop :=
  ∀ (x : Reg) (s : State), (encode (.ldFVx x)).toNat = 0xF029 + x.val * 0x100 ∧
    ∃ t, exec (.ldFVx x) s = .next t ∧ t.i.toNat = (s.getV x).toNat * 5 ∧ t.pc = s.pc + 2 ∧ Kept { i := true } s t

/-- "Store decimal digits of V[X] (hundreds, tens, ones) into memory[I..I+2]" (R213), where the three bytes exist (D4).
The bytes stored to are the three at `State.ea s 0`, which the meaning uses; every other byte is kept. -/
def Obligations.DecimalStore : Prop :=
  ∀ (x : Reg) (s : State), s.mem.wf = true → s.i.toNat + 2 ≤ 0xFFF →
    ∃ t, exec (.ldBVx x) s = .next t ∧
      (t.mem.read (s.ea 0)).toNat = (s.getV x).toNat / 100 ∧
      (t.mem.read (s.ea 0 + 1)).toNat = (s.getV x).toNat / 10 % 10 ∧
      (t.mem.read (s.ea 0 + 2)).toNat = (s.getV x).toNat % 10 ∧
      MemKeptOutside s t (s.ea 0) 3 ∧ t.mem.wf = true ∧ t.pc = s.pc + 2 ∧ Kept { mem := true } s t

/-- "Copy V[0..X] into memory[I..I+X] inclusive; I unchanged" (R214), or I + x + 1 under `LOADSTORE_INCREMENTS_I` (decision
D16), where the bytes exist (D4). The bytes stored to are the x + 1 at `State.ea s 0`, which the meaning uses. -/
def Obligations.RegisterStore : Prop :=
  ∀ (x : Reg) (s : State), s.mem.wf = true → s.i.toNat + x.val ≤ 0xFFF →
    ∃ t, exec (.ldMemVx x) s = .next t ∧
      (∀ k : Reg, k ≤ x → t.mem.read (s.ea 0 + k.val) = s.getV k) ∧
      MemKeptOutside s t (s.ea 0) (x.val + 1) ∧ t.mem.wf = true ∧
      (s.cfg.loadStoreIncrementsI = false → t.i = s.i) ∧
      (s.cfg.loadStoreIncrementsI = true → t.i.toNat = s.i.toNat + x.val + 1) ∧
      t.pc = s.pc + 2 ∧ Kept { mem := true, i := true } s t

/-- "Copy memory[I..I+X] into V[0..X] inclusive; I unchanged" (R215), or I + x + 1 under `LOADSTORE_INCREMENTS_I` (decision
D16), where the bytes exist (D4). -/
def Obligations.RegisterLoad : Prop :=
  ∀ (x : Reg) (s : State), s.i.toNat + x.val ≤ 0xFFF →
    ∃ t, exec (.ldVxMem x) s = .next t ∧
      (∀ k : Reg, k ≤ x → t.getV k = s.mem.read (s.i.toNat + k.val)) ∧
      (∀ k : Reg, x < k → t.getV k = s.getV k) ∧
      (s.cfg.loadStoreIncrementsI = false → t.i = s.i) ∧
      (s.cfg.loadStoreIncrementsI = true → t.i.toNat = s.i.toNat + x.val + 1) ∧
      t.pc = s.pc + 2 ∧ Kept { regs := (List.finRange 16).filter (fun r => decide (r ≤ x)), i := true } s t

/-- "FX55 then FX65 with the same X and I round-trips: V[0..X] is unchanged by the pair" (W6), whatever `LOADSTORE_INCREMENTS_I`
is, when I is given back its value between the two, as R215 says. -/
def Obligations.StoreThenLoadRoundTrips : Prop :=
  ∀ (x : Reg) (s : State), s.mem.wf = true → s.i.toNat + x.val ≤ 0xFFF →
    ∃ t u, exec (.ldMemVx x) s = .next t ∧ exec (.ldVxMem x) (t.setI s.i) = .next u ∧
      (∀ r, u.getV r = s.getV r) ∧ (∀ a, u.mem.read a = t.mem.read a)

/-- "A byte that FX33, FX55 or loadProgram writes is seen by the next fetch of that address" (R75, derived by the spec): after
FX55, a fetch at two of the addresses it wrote gives the word of the two registers. -/
def Obligations.StoredBytesAreFetched : Prop :=
  ∀ (x k : Reg) (s t u : State), s.mem.wf = true → s.i.toNat + x.val ≤ 0xFFF → k < x →
    exec (.ldMemVx x) s = .next t → u.mem = t.mem → u.pc.toNat = s.i.toNat + k.val →
    ∃ op, u.fetch = some op ∧ op.toNat = (s.getV k).toNat * 256 + (s.getV (k + 1)).toNat

/-! ## Keys and timers (44_keys_timers.md) -/

/-- EX9E skips when key V[x] is pressed and EXA1 when it is not (R240, R241), for a V[x] that names a key. -/
def Obligations.KeySkips : Prop :=
  ∀ (x : Reg) (k : Key) (s : State), (s.getV x).toNat = k.val →
    (∃ t, exec (.skp x) s = .next t ∧ (s.keyFlag k = true → t.pc = s.pc + 4) ∧
      (s.keyFlag k = false → t.pc = s.pc + 2) ∧ Kept {} s t) ∧
    (∃ t, exec (.sknp x) s = .next t ∧ (s.keyFlag k = false → t.pc = s.pc + 4) ∧
      (s.keyFlag k = true → t.pc = s.pc + 2) ∧ Kept {} s t)

/-- EX9E and EXA1 with V[x] > 0x0F raise KEY_RANGE with info V[x]. R240, R241, decision D10. -/
def Obligations.NoSuchKeyFaults : Prop :=
  ∀ (x : Reg) (s : State), 0xF < (s.getV x).toNat →
    ∃ info : Word, info.toNat = (s.getV x).toNat ∧
      exec (.skp x) s = .next { s with fault := some ⟨.keyRange, s.pc, info⟩ } ∧
      exec (.sknp x) s = .next { s with fault := some ⟨.keyRange, s.pc, info⟩ }

/-- "V[X] := delayTimer; PC+=2" (R242). In a whole step the value read is DT before the step's own tick. -/
def Obligations.DelayTimerRead : Prop :=
  ∀ (x : Reg) (s : State), (encode (.ldVxDt x)).toNat = 0xF007 + x.val * 0x100 ∧
    (∃ t, exec (.ldVxDt x) s = .next t ∧ t.getV x = s.dt ∧ t.pc = s.pc + 2 ∧ Kept { regs := [x] } s t) ∧
    (s.fault = none → s.wait = none → s.fetch = some (encode (.ldVxDt x)) → ∃ u, step s = .next u ∧ u.getV x = s.dt)

/-- "delayTimer ... := V[X]; PC+=2" (R247) and "... soundTimer := V[X]; PC+=2" (R248). In a whole step the tick of `per_step`
follows at once, so there the timer ends one below V[x], and not below 0. -/
def Obligations.TimerWrites : Prop :=
  ∀ (x : Reg) (s : State),
    (encode (.ldDtVx x)).toNat = 0xF015 + x.val * 0x100 ∧ (encode (.ldStVx x)).toNat = 0xF018 + x.val * 0x100 ∧
    (∃ t, exec (.ldDtVx x) s = .next t ∧ t.dt = s.getV x ∧ t.pc = s.pc + 2 ∧ Kept { dt := true } s t) ∧
    (∃ t, exec (.ldStVx x) s = .next t ∧ t.st = s.getV x ∧ t.pc = s.pc + 2 ∧ Kept { st := true } s t) ∧
    (s.fault = none → s.wait = none → s.fetch = some (encode (.ldDtVx x)) → ∃ u, step s = .next u ∧
      (s.cfg.timerMode = .externalTick → u.dt = s.getV x) ∧
      (s.cfg.timerMode = .perStep → u.dt.toNat = (s.getV x).toNat - 1)) ∧
    (s.fault = none → s.wait = none → s.fetch = some (encode (.ldStVx x)) → ∃ u, step s = .next u ∧
      (s.cfg.timerMode = .externalTick → u.st = s.getV x) ∧
      (s.cfg.timerMode = .perStep → u.st.toNat = (s.getV x).toNat - 1))

/-- FX0A begins to wait: W becomes some x, "PC is not changed and still addresses the FX0A. V[x] is not yet written." (R245),
and whichever released key is pressed first completes it: V[x] takes the key, W is cleared, PC goes past the FX0A (R246).
Decision D18. -/
def Obligations.WaitBeginsAndAKeyPressCompletesIt : Prop :=
  ∀ (x : Reg) (s : State), ∃ t, exec (.ldVxK x) s = .next t ∧ t.wait = some x ∧ t.pc = s.pc ∧
    Kept { wait := true } s t ∧
    ∀ k : Key, s.keyFlag k = false → ∃ u, applyEvent (.setKey k true) t = .next u ∧
      (u.getV x).toNat = k.val ∧ u.wait = none ∧ u.pc = s.pc + 2 ∧ u.keyFlag k = true

/-- `setKey(k, pressed)` sets K[k] in every state. When it presses a released key while W = some x, it also ends the wait:
V[x] takes k, W is cleared, PC advances, and under `per_step` the deferred tick happens; otherwise nothing but K[k] changes.
R246, R286, decision D18. -/
def Obligations.SetKeySetsTheKeyAndMayEndTheWait : Prop :=
  ∀ (k : Key) (p : Bool) (s : State), ∃ t, applyEvent (.setKey k p) s = .next t ∧
    t.keyFlag k = p ∧ (∀ j, j ≠ k → t.keyFlag j = s.keyFlag j) ∧
    (∀ x, s.wait = some x → p = true → s.keyFlag k = false →
      t.wait = none ∧ (t.getV x).toNat = k.val ∧ (∀ r, r ≠ x → t.getV r = s.getV r) ∧ t.pc = s.pc + 2 ∧
      (s.cfg.timerMode = .perStep → t.dt.toNat = s.dt.toNat - 1 ∧ t.st.toNat = s.st.toNat - 1) ∧
      (s.cfg.timerMode = .externalTick → t.dt = s.dt ∧ t.st = s.st)) ∧
    (s.wait = none ∨ p = false ∨ s.keyFlag k = true →
      t.wait = s.wait ∧ t.pc = s.pc ∧ (∀ r, t.getV r = s.getV r) ∧ t.dt = s.dt ∧ t.st = s.st) ∧
    t.i = s.i ∧ t.sp = s.sp ∧ (∀ j, t.stackAt j = s.stackAt j) ∧ (∀ a, t.mem.read a = s.mem.read a) ∧
    t.fault = s.fault ∧ t.rp = s.rp ∧ t.display = s.display

/-- Only a key that goes from released to pressed, or `reset`, ends the wait: after every other event W is as before (R35,
R91, R246, R285). The wait of R35 is the spec's decision D18 and the reset event its decision D21. -/
def Obligations.OnlyAKeyPressOrResetEndsTheWait : Prop :=
  ∀ (e : Event) (s t : State) (x : Reg), s.wait = some x → applyEvent e s = .next t →
    t.wait = some x ∨ (t.wait = none ∧ (e = .reset ∨ ∃ k, e = .setKey k true ∧ s.keyFlag k = false))

/-- "One tick decrements each nonzero timer by one", and a timer at 0 stays at 0 (R252); nothing else changes. -/
def Obligations.TickCountsDownToZero : Prop :=
  ∀ s : State, (0 < s.dt.toNat → s.tick.dt.toNat + 1 = s.dt.toNat) ∧ (s.dt.toNat = 0 → s.tick.dt.toNat = 0) ∧
    (0 < s.st.toNat → s.tick.st.toNat + 1 = s.st.toNat) ∧ (s.st.toNat = 0 → s.tick.st.toNat = 0) ∧
    s.tick.pc = s.pc ∧ Kept { dt := true, st := true } s s.tick

/-! ## Host events (60_exceptions.md, 70_reset_and_hazards.md) -/

/-- `tick60` ticks under `external_tick`, in every state, held ones included, and has no effect under `per_step` (R253, R291,
decision D1). -/
def Obligations.TickEventFollowsTimerMode : Prop :=
  ∀ s t : State, applyEvent .tick60 s = .next t →
    (s.cfg.timerMode = .externalTick → t = s.tick ∧ t.dt.toNat = s.dt.toNat - 1 ∧ t.st.toNat = s.st.toNat - 1) ∧
    (s.cfg.timerMode = .perStep → t = s)

/-- The effect of `clearRedraw` is RP <- false, and it writes nothing else (R287). -/
def Obligations.ClearRedrawClearsRpOnly : Prop :=
  ∀ s : State, ∃ t, applyEvent .clearRedraw s = .next t ∧ t = { s with rp := false } ∧
    t.isRedrawPending = false ∧ t.getDisplayBuffer = s.getDisplayBuffer

/-- `loadProgram`: "On size overflow the load must be rejected rather than partially applied", otherwise the bytes are at
0x200 and every other byte is kept (R288, details decision D22). -/
def Obligations.LoadProgramCopiesOrRejects : Prop :=
  ∀ (b : List Byte) (s : State), s.mem.wf = true →
    (3584 < b.length → s.loadProgram b = (.rejectOversize, s)) ∧
    (b.length ≤ 3584 → (s.loadProgram b).1 = .ok ∧
      (∀ j (h : j < b.length), (s.loadProgram b).2.mem.read (0x200 + j) = b[j]) ∧
      MemKeptOutside s (s.loadProgram b).2 0x200 b.length ∧ (s.loadProgram b).2.mem.wf = true ∧
      (s.loadProgram b).2.pc = s.pc ∧ Kept { mem := true } s (s.loadProgram b).2)

/-- The reset event puts every component at its value of R34, with the font of `FONT` at 0x000 and zero elsewhere. The source
states M, V, I and PC ("zero-initialized memory/registers, font set copied into low memory, programCounter=0x200"); the
other values are the spec's decision D20, the event its decision D21, and what becomes of the model's own fields log 11. -/
def Obligations.ResetEventRestoresCreation : Prop :=
  ∀ s : State, ∃ t, applyEvent .reset s = .next t ∧
    (∀ (j : Nat) (h : j < 80), t.mem.read j = s.cfg.font[j]) ∧ (∀ a, 80 ≤ a → t.mem.read a = 0) ∧
    (∀ r, t.getV r = 0) ∧ t.i = 0 ∧ t.pc = 0x200 ∧
    t.sp = 0 ∧ (∀ j, t.stackAt j = 0) ∧ t.dt = 0 ∧ t.st = 0 ∧ (∀ k, t.keyFlag k = false) ∧
    (∀ px py, t.display.pixel px py = false) ∧ t.rp = false ∧ t.wait = none ∧ t.fault = none ∧ t.cfg = s.cfg
end

