-- ==== Sys2Proof/Laws/Decode.lean ====
section
/-! SUPPORT. The fields of an encoded word are the fields it was made from (R94, R95 of 30_encoding.md), and a word is
its two bytes (R64 of 20_memory.md). Each is first said as an equation of natural numbers. -/

namespace Sys2Proof

/-- Concatenation as arithmetic, `(a << w) | b` (R10). -/
theorem toNat_append_add {v w : Nat} (a : BitVec v) (b : BitVec w) :
    (a ++ b).toNat = a.toNat * 2 ^ w + b.toNat := by
  rw [BitVec.toNat_append, ← Nat.shiftLeft_add_eq_or_of_lt b.isLt, Nat.shiftLeft_eq]

/-! ## The formats and the fields as numbers -/

theorem toNat_encA (f : BitVec 4) (nnn : Addr12) : (encA f nnn).toNat = f.toNat * 4096 + nnn.toNat :=
  toNat_append_add f nnn

theorem toNat_encXnn (f : BitVec 4) (x : Reg) (nn : Byte) :
    (encXnn f x nn).toNat = (f.toNat * 16 + x.val) * 256 + nn.toNat := by
  have h := toNat_append_add (f ++ BitVec.ofFin (w := 4) x) nn
  rw [toNat_append_add f (BitVec.ofFin (w := 4) x)] at h
  exact h

theorem toNat_encXyn (f : BitVec 4) (x y n : Fin 16) :
    (encXyn f x y n).toNat = ((f.toNat * 16 + x.val) * 16 + y.val) * 16 + n.val := by
  have h := toNat_append_add (f ++ BitVec.ofFin (w := 4) x ++ BitVec.ofFin (w := 4) y) (BitVec.ofFin (w := 4) n)
  rw [toNat_append_add (f ++ BitVec.ofFin (w := 4) x) (BitVec.ofFin (w := 4) y),
    toNat_append_add f (BitVec.ofFin (w := 4) x)] at h
  exact h

theorem toNat_wordOfBytes (hi lo : Byte) : (wordOfBytes hi lo).toNat = hi.toNat * 256 + lo.toNat :=
  toNat_append_add hi lo

theorem toNat_opFamily (op : Word) : (opFamily op).toNat = op.toNat / 4096 := by
  have := op.isLt
  simp [opFamily, Nat.shiftRight_eq_div_pow]; omega

theorem val_opX (op : Word) : (opX op).val = op.toNat / 256 % 16 := by
  show (op.extractLsb' 8 4).toNat = _
  simp [Nat.shiftRight_eq_div_pow]

theorem val_opY (op : Word) : (opY op).val = op.toNat / 16 % 16 := by
  show (op.extractLsb' 4 4).toNat = _
  simp [Nat.shiftRight_eq_div_pow]

theorem val_opN (op : Word) : (opN op).val = op.toNat % 16 := by
  show (op.extractLsb' 0 4).toNat = _
  simp

theorem toNat_opNn (op : Word) : (opNn op).toNat = op.toNat % 256 := by
  simp [opNn]

theorem toNat_opNnn (op : Word) : (opNnn op).toNat = op.toNat % 4096 := by
  simp [opNnn]

/-! ## Format A -/

@[simp] theorem opFamily_encA (f : BitVec 4) (nnn : Addr12) : opFamily (encA f nnn) = f := by
  apply BitVec.eq_of_toNat_eq
  rw [toNat_opFamily, toNat_encA]; have := nnn.isLt; omega

@[simp] theorem opNnn_encA (f : BitVec 4) (nnn : Addr12) : opNnn (encA f nnn) = nnn := by
  apply BitVec.eq_of_toNat_eq
  rw [toNat_opNnn, toNat_encA]; have := nnn.isLt; omega

/-! ## Formats XNN and X -/

@[simp] theorem opFamily_encXnn (f : BitVec 4) (x : Reg) (nn : Byte) : opFamily (encXnn f x nn) = f := by
  apply BitVec.eq_of_toNat_eq
  rw [toNat_opFamily, toNat_encXnn]; have := nn.isLt; omega

@[simp] theorem opX_encXnn (f : BitVec 4) (x : Reg) (nn : Byte) : opX (encXnn f x nn) = x := by
  apply Fin.ext
  rw [val_opX, toNat_encXnn]; have := nn.isLt; omega

@[simp] theorem opNn_encXnn (f : BitVec 4) (x : Reg) (nn : Byte) : opNn (encXnn f x nn) = nn := by
  apply BitVec.eq_of_toNat_eq
  rw [toNat_opNn, toNat_encXnn]; have := nn.isLt; omega

/-! ## Formats XYN and XY -/

@[simp] theorem opFamily_encXyn (f : BitVec 4) (x y n : Fin 16) : opFamily (encXyn f x y n) = f := by
  apply BitVec.eq_of_toNat_eq
  rw [toNat_opFamily, toNat_encXyn]; omega

@[simp] theorem opX_encXyn (f : BitVec 4) (x y n : Fin 16) : opX (encXyn f x y n) = x := by
  apply Fin.ext
  rw [val_opX, toNat_encXyn]; omega

@[simp] theorem opY_encXyn (f : BitVec 4) (x y n : Fin 16) : opY (encXyn f x y n) = y := by
  apply Fin.ext
  rw [val_opY, toNat_encXyn]; omega

@[simp] theorem opN_encXyn (f : BitVec 4) (x y n : Fin 16) : opN (encXyn f x y n) = n := by
  apply Fin.ext
  rw [val_opN, toNat_encXyn]; omega

/-! ## A word from its fields -/

theorem encA_fields (op : Word) (f : BitVec 4) (h : opFamily op = f) : encA f (opNnn op) = op := by
  subst h
  apply BitVec.eq_of_toNat_eq
  rw [toNat_encA, toNat_opFamily, toNat_opNnn]; omega

theorem encXnn_fields (op : Word) (f : BitVec 4) (nn : Byte) (h : opFamily op = f) (hn : opNn op = nn) :
    encXnn f (opX op) nn = op := by
  subst h hn
  apply BitVec.eq_of_toNat_eq
  rw [toNat_encXnn, toNat_opFamily, val_opX, toNat_opNn]; omega

theorem encXyn_fields (op : Word) (f : BitVec 4) (n : Fin 16) (h : opFamily op = f) (hn : opN op = n) :
    encXyn f (opX op) (opY op) n = op := by
  subst h hn
  apply BitVec.eq_of_toNat_eq
  rw [toNat_encXyn, toNat_opFamily, val_opX, val_opY, val_opN]; omega

/-! ## A word and its bytes -/

theorem wordOfBytes_bytes (w : Word) : wordOfBytes (w.extractLsb' 8 8) (w.extractLsb' 0 8) = w := by
  apply BitVec.eq_of_toNat_eq
  have := w.isLt
  rw [toNat_wordOfBytes]; simp [Nat.shiftRight_eq_div_pow]; omega

theorem decodeBytes_bytesOfWord (w : Word) (rest : List Byte) :
    decodeBytes (bytesOfWord w ++ rest) = some (decode w, rest) := by
  simp [bytesOfWord, decodeBytes, wordOfBytes_bytes]

/-! ## Unsupported words -/

/-- Decode hands an unsupported word back as it is. -/
theorem decode_unsupported {op w : Word} (h : decode op = .unsupported w) : w = op := by
  unfold decode decodeFamily8 decodeFamilyE decodeFamilyF at h
  split at h <;> (try split at h) <;> (try split at h) <;> simp_all

/-! ## Masks as fields (R96) -/

/-- AND splits at a power of two. -/
theorem and_split (n k a b : Nat) (hb : b < 2 ^ k) :
    n &&& (2 ^ k * a + b) = 2 ^ k * (n / 2 ^ k &&& a) + (n % 2 ^ k &&& b) := by
  have hlt : n % 2 ^ k &&& b < 2 ^ k := Nat.and_lt_two_pow _ hb
  apply Nat.eq_of_testBit_eq
  intro i
  rw [Nat.testBit_and, Nat.testBit_two_pow_mul_add _ hb, Nat.testBit_two_pow_mul_add _ hlt]
  by_cases h : i < k
  · simp [h, Nat.testBit_mod_two_pow]
  · simp [h, Nat.testBit_div_two_pow, Nat.sub_add_cancel (Nat.le_of_not_lt h)]

theorem toNat_and_F000 (op : Word) : (op &&& 0xF000#16).toNat = op.toNat / 4096 * 4096 := by
  have h := and_split op.toNat 12 15 0 (by decide)
  have h2 := Nat.and_two_pow_sub_one_eq_mod (op.toNat / 4096) 4
  have := op.isLt
  norm_num at h h2 ⊢
  omega
theorem toNat_and_F00F (op : Word) : (op &&& 0xF00F#16).toNat = op.toNat / 4096 * 4096 + op.toNat % 16 := by
  have h := and_split op.toNat 12 15 15 (by decide)
  have h2 := Nat.and_two_pow_sub_one_eq_mod (op.toNat / 4096) 4
  have h3 := Nat.and_two_pow_sub_one_eq_mod (op.toNat % 4096) 4
  have := op.isLt
  norm_num at h h2 h3 ⊢
  omega
theorem toNat_and_F0FF (op : Word) : (op &&& 0xF0FF#16).toNat = op.toNat / 4096 * 4096 + op.toNat % 256 := by
  have h := and_split op.toNat 12 15 255 (by decide)
  have h2 := Nat.and_two_pow_sub_one_eq_mod (op.toNat / 4096) 4
  have h3 := Nat.and_two_pow_sub_one_eq_mod (op.toNat % 4096) 8
  have := op.isLt
  norm_num at h h2 h3 ⊢
  omega

end Sys2Proof
end

