-- ==== Sys2Proof/Laws/Display.lean ====
section
/-! SUPPORT. The laws of pixels and of a sprite's bits (R31 of 10_state.md, R121-R123 of 40_display.md). -/

namespace Sys2Proof.Machine

/-- Flipping a pixel changes that pixel alone. -/
theorem Screen.pixel_flip (d : Screen) (px qx : Fin 64) (py qy : Fin 32) :
    (d.flip px py).pixel qx qy = (d.pixel qx qy ^^ decide (px = qx ∧ py = qy)) := by
  unfold Screen.flip Screen.pixel
  by_cases hy : py = qy
  · subst hy
    have hx : (1#64 <<< px.val).getLsbD qx.val = decide (px = qx) := by
      rw [← BitVec.twoPow_eq, BitVec.getLsbD_twoPow]
      simp [px.isLt, Fin.ext_iff]
    simp only [Fin.getElem_fin, Vector.getElem_set_self, BitVec.getLsbD_xor, hx]
    simp
  · have hv : py.val ≠ qy.val := fun h => hy (Fin.ext h)
    simp [hy, hv]

/-- A cleared display has no pixel set. -/
theorem Screen.pixel_clear (px : Fin 64) (py : Fin 32) : Screen.clear.pixel px py = false := by
  simp [Screen.clear, Screen.pixel]

/-- Two displays with the same pixels are equal. -/
theorem Screen.ext_pixel (d e : Screen) (h : ∀ px py, d.pixel px py = e.pixel px py) : d = e := by
  apply Vector.ext
  intro i hi
  apply BitVec.eq_of_getLsbD_eq
  intro j hj
  exact h ⟨j, hj⟩ ⟨i, hi⟩

/-- The coordinates of one row's set bits. -/
theorem mem_rowBits (xs cy : Nat) (b : Byte) (c : Nat × Nat) :
    c ∈ rowBits xs cy b ↔ ∃ col < 8, b.getLsbD (7 - col) = true ∧ c = (xs + col, cy) := by
  simp only [rowBits, List.mem_map, List.mem_filter, List.mem_range]
  constructor
  · rintro ⟨col, ⟨h1, h2⟩, rfl⟩; exact ⟨col, h1, h2, rfl⟩
  · rintro ⟨col, h1, h2, rfl⟩; exact ⟨col, ⟨h1, h2⟩, rfl⟩

/-- The coordinates of a sprite's set bits: row r is at cy + r. -/
theorem mem_spriteBits (xs : Nat) : ∀ (rows : List Byte) (cy : Nat) (c : Nat × Nat),
    c ∈ spriteBits xs cy rows ↔
      ∃ r, ∃ h : r < rows.length, ∃ col < 8, rows[r].getLsbD (7 - col) = true ∧ c = (xs + col, cy + r)
  | [], cy, c => by simp [spriteBits]
  | b :: rest, cy, c => by
    simp only [spriteBits, List.mem_append, mem_rowBits, mem_spriteBits xs rest (cy + 1) c]
    constructor
    · rintro (⟨col, h1, h2, h3⟩ | ⟨r, hr, col, h1, h2, h3⟩)
      · exact ⟨0, by simp, col, h1, by simpa using h2, by simpa using h3⟩
      · exact ⟨r + 1, by simpa using hr, col, h1, by simpa using h2, by rw [h3]; congr 1; omega⟩
    · rintro ⟨r, hr, col, h1, h2, h3⟩
      cases r with
      | zero => exact .inl ⟨col, h1, by simpa using h2, by simpa using h3⟩
      | succ r =>
        exact .inr ⟨r, by simpa using hr, col, h1, by simpa using h2, by rw [h3]; congr 1; omega⟩

/-- The pixels a sprite's bits fall on, in order, for the visible ones (R122). -/
def spriteTargets (e : SpriteEdge) (l : List (Nat × Nat)) : List (Fin 64 × Fin 32) :=
  l.filterMap fun b => place e b.1 b.2

theorem spriteTargets_none {e : SpriteEdge} {b : Nat × Nat} (l : List (Nat × Nat)) (h : place e b.1 b.2 = none) :
    spriteTargets e (b :: l) = spriteTargets e l := by simp [spriteTargets, h]

theorem spriteTargets_some {e : SpriteEdge} {b : Nat × Nat} {p : Fin 64 × Fin 32} (l : List (Nat × Nat))
    (h : place e b.1 b.2 = some p) : spriteTargets e (b :: l) = p :: spriteTargets e l := by simp [spriteTargets, h]

/-- What a whole draw does, where no pixel is hit twice: it XORs its targets, and `hit` says whether one was set
(R121). -/
theorem Canvas.drawAll_spec (e : SpriteEdge) : ∀ (l : List (Nat × Nat)) (c : Canvas),
    (spriteTargets e l).Nodup →
    (∀ px py, ((c.drawAll e l).screen.pixel px py =
      (c.screen.pixel px py ^^ decide ((px,py) ∈ spriteTargets e l)))) ∧
    ((c.drawAll e l).hit = true ↔ c.hit = true ∨ ∃ px py, (px,py) ∈ spriteTargets e l ∧ c.screen.pixel px py = true)
  | [], c, _ => by simp [Canvas.drawAll, spriteTargets]
  | b :: l, c, hn => by
    have ih := Canvas.drawAll_spec e l (c.draw e b)
    have hd : c.drawAll e (b :: l) = (c.draw e b).drawAll e l := rfl
    rw [hd]
    cases hp : place e b.1 b.2 with
    | none =>
      rw [spriteTargets_none l hp] at hn ⊢
      have hc : c.draw e b = c := by simp [Canvas.draw, hp]
      rw [hc] at ih ⊢
      exact ih hn
    | some p =>
      obtain ⟨qx, qy⟩ := p
      simp only [spriteTargets_some l hp, List.nodup_cons] at hn ⊢
      have hc : c.draw e b = ⟨c.screen.flip qx qy, c.hit || c.screen.pixel qx qy⟩ := by simp [Canvas.draw, hp]
      rw [hc] at ih ⊢
      obtain ⟨i1, i2⟩ := ih hn.2
      refine ⟨fun px py => ?_, ?_⟩
      · rw [i1]; simp only [Screen.pixel_flip]
        by_cases h : qx = px ∧ qy = py
        · obtain ⟨rfl, rfl⟩ := h
          simp [hn.1]
        · have : ¬ ((px,py) = (qx,qy)) := by rintro h'; cases h'; exact h ⟨rfl, rfl⟩
          simp [h, List.mem_cons, this]
      · rw [i2]; simp only [Bool.or_eq_true, List.mem_cons]
        constructor
        · rintro ((h|h)|⟨px,py,hm,hpx⟩)
          · exact .inl h
          · exact .inr ⟨qx,qy,.inl rfl,h⟩
          · refine .inr ⟨px,py,.inr hm,?_⟩
            rw [Screen.pixel_flip] at hpx
            have : ¬ (qx = px ∧ qy = py) := by rintro ⟨rfl,rfl⟩; exact hn.1 hm
            simpa [this] using hpx
        · rintro (h|⟨px,py,hm|hm,hpx⟩)
          · exact .inl (.inl h)
          · cases hm; exact .inl (.inr hpx)
          · refine .inr ⟨px,py,hm,?_⟩
            have : ¬ (qx = px ∧ qy = py) := by rintro ⟨rfl,rfl⟩; exact hn.1 hm
            rw [Screen.pixel_flip]; simpa [this] using hpx

/-- One row sets no pixel twice. -/
theorem rowBits_nodup (xs cy : Nat) (b : Byte) : (rowBits xs cy b).Nodup := by
  unfold rowBits
  refine List.Nodup.map ?_ (List.nodup_range.filter _)
  intro a b h; simp at h; exact h

/-- A sprite has no bit twice. -/
theorem spriteBits_nodup (xs : Nat) : ∀ (rows : List Byte) (cy : Nat), (spriteBits xs cy rows).Nodup
  | [], cy => by simp [spriteBits]
  | b :: rest, cy => by
    simp only [spriteBits]
    rw [List.nodup_append]
    refine ⟨rowBits_nodup _ _ _, spriteBits_nodup xs rest _, ?_⟩
    intro a ha c hc h
    subst h
    rw [mem_rowBits] at ha; rw [mem_spriteBits] at hc
    obtain ⟨_,_,_,rfl⟩ := ha
    obtain ⟨_,_,_,_,_,h⟩ := hc
    simp at h; omega

/-- A sprite is at most 8 wide and 15 high, so two of its bits never fall on one pixel (R122). -/
theorem place_inj (e : SpriteEdge) (xs ys c1 r1 c2 r2 : Nat) (p) (h1 : c1 < 8) (h2 : c2 < 8) (h3 : r1 < 16) (h4 : r2 < 16)
    (h : place e (xs+c1) (ys+r1) = some p) (h' : place e (xs+c2) (ys+r2) = some p) : c1 = c2 ∧ r1 = r2 := by
  cases e with
  | wrap =>
    simp only [place, Option.some.injEq] at h h'
    rw [← h'] at h
    simp only [Prod.mk.injEq, Fin.mk.injEq] at h
    omega
  | clip =>
    simp only [place] at h h'
    split at h <;> split at h' <;> simp at h h'
    rw [← h'] at h
    simp only [Prod.mk.injEq, Fin.mk.injEq] at h
    omega

/-- A sprite never overlaps itself (R122). -/
theorem spriteTargets_nodup (e : SpriteEdge) (xs ys : Nat) (rows : List Byte) (hl : rows.length < 16) :
    (spriteTargets e (spriteBits xs ys rows)).Nodup := by
  have := spriteBits_nodup xs rows ys
  unfold spriteTargets List.Nodup at *
  rw [List.pairwise_filterMap]
  refine List.Pairwise.imp_of_mem ?_ this
  intro a b ha hb hab p hp q hq hpq
  subst hpq
  rw [mem_spriteBits] at ha hb
  obtain ⟨r1,hr1,c1,hc1,_,rfl⟩ := ha
  obtain ⟨r2,hr2,c2,hc2,_,rfl⟩ := hb
  simp only at hp hq
  obtain ⟨rfl, rfl⟩ := place_inj e xs ys c1 r1 c2 r2 p hc1 hc2 (by omega) (by omega) hp hq
  exact hab rfl

end Sys2Proof.Machine
end

