-- ==== Sys2Proof/Laws/Memory.lean ====
section
/-! SUPPORT. The laws of memory: reading after writing, and the canonical form that every memory operation keeps
(log 4). -/

namespace Sys2Proof.Machine

/-! ## Reading after writing (R68, R72 of 20_memory.md) -/

theorem Memory.read_consCell (a : Nat) (b : Byte) (rest : Memory) (c : Nat)
    (h : Memory.read rest a = Memory.base a) :
    Memory.read (Memory.consCell a b rest) c = if a = c then b else Memory.read rest c := by
  unfold Memory.consCell
  by_cases hb : b = Memory.base a
  · by_cases hc : a = c
    · subst hc; simp [hb, h]
    · simp [hb, hc]
  · simp [hb, Memory.read]

/-- An address below every listed one reads as unlisted. -/
theorem Memory.read_below : ∀ (m : Memory) (lo a : Nat), Memory.wfFrom lo m = true → a < lo →
    Memory.read m a = Memory.base a
  | [], _, _, _, _ => rfl
  | (k, b) :: rest, lo, a, h, ha => by
    simp only [Memory.wfFrom, Bool.and_eq_true, decide_eq_true_eq] at h
    have hk : k ≠ a := by omega
    simp only [Memory.read, hk, if_false]
    exact Memory.read_below rest (k + 1) a h.2 (by omega)

/-- The canonical form from a lower bound holds from any lower one. -/
theorem Memory.wfFrom_mono : ∀ (m : Memory) (lo lo' : Nat), lo' ≤ lo → Memory.wfFrom lo m = true →
    Memory.wfFrom lo' m = true
  | [], _, _, _, _ => rfl
  | (k, b) :: rest, lo, lo', h, hm => by
    simp only [Memory.wfFrom, Bool.and_eq_true, decide_eq_true_eq] at hm ⊢
    exact ⟨⟨⟨by omega, hm.1.1.2⟩, hm.1.2⟩, hm.2⟩

theorem Memory.read_write_from : ∀ (m : Memory) (lo a : Nat) (b : Byte) (c : Nat),
    Memory.wfFrom lo m = true → Memory.read (Memory.write m a b) c = if a = c then b else Memory.read m c
  | [], _, a, b, c, _ => by simpa [Memory.write] using Memory.read_consCell a b [] c rfl
  | (k, d) :: rest, lo, a, b, c, h => by
    have h' := h
    simp only [Memory.wfFrom, Bool.and_eq_true, decide_eq_true_eq] at h'
    unfold Memory.write
    split
    · next hlt =>
      apply Memory.read_consCell
      apply Memory.read_below _ k
      · simp only [Memory.wfFrom, Bool.and_eq_true, decide_eq_true_eq]
        exact ⟨⟨⟨Nat.le_refl k, h'.1.1.2⟩, h'.1.2⟩, h'.2⟩
      · exact hlt
    · split
      · next hge heq =>
        subst heq
        rw [Memory.read_consCell _ _ _ _ (Memory.read_below rest (a + 1) a h'.2 (by omega))]
        by_cases hc : a = c <;> simp [Memory.read, hc]
      · next hge hne =>
        have ih := Memory.read_write_from rest (k + 1) a b c h'.2
        by_cases hk : k = c
        · subst hk; simp [Memory.read, hne]
        · simp [Memory.read, hk, ih]

/-- A write puts its byte at its address and leaves every other address alone. -/
theorem Memory.read_write (m : Memory) (a : Nat) (b : Byte) (c : Nat) (h : m.wf = true) :
    (m.write a b).read c = if a = c then b else m.read c :=
  Memory.read_write_from m 0 a b c h

/-! ## The canonical form is kept -/

theorem Memory.wfFrom_consCell (lo a : Nat) (b : Byte) (rest : Memory) (hlo : lo ≤ a) (ha : a < 4096)
    (h : Memory.wfFrom (a + 1) rest = true) : Memory.wfFrom lo (Memory.consCell a b rest) = true := by
  unfold Memory.consCell
  by_cases hb : b = Memory.base a
  · simp only [hb, if_true]; exact Memory.wfFrom_mono rest _ _ (by omega) h
  · simp [hb, Memory.wfFrom, hlo, ha, h]

theorem Memory.wfFrom_write : ∀ (m : Memory) (lo a : Nat) (b : Byte), lo ≤ a → a < 4096 →
    Memory.wfFrom lo m = true → Memory.wfFrom lo (Memory.write m a b) = true
  | [], lo, a, b, hlo, ha, _ => Memory.wfFrom_consCell lo a b [] hlo ha rfl
  | (k, d) :: rest, lo, a, b, hlo, ha, h => by
    have h' := h
    simp only [Memory.wfFrom, Bool.and_eq_true, decide_eq_true_eq] at h'
    unfold Memory.write
    split
    · next hlt =>
      apply Memory.wfFrom_consCell lo a b _ hlo ha
      simp only [Memory.wfFrom, Bool.and_eq_true, decide_eq_true_eq]
      exact ⟨⟨⟨by omega, h'.1.1.2⟩, h'.1.2⟩, h'.2⟩
    · split
      · next hge heq =>
        subst heq
        exact Memory.wfFrom_consCell lo a b rest hlo ha h'.2
      · next hge hne =>
        simp only [Memory.wfFrom, Bool.and_eq_true, decide_eq_true_eq]
        exact ⟨h'.1, Memory.wfFrom_write rest (k + 1) a b (by omega) ha h'.2⟩

/-- A write inside the address space keeps the canonical form. -/
theorem Memory.wf_write (m : Memory) (a : Nat) (b : Byte) (ha : a < 4096) (h : m.wf = true) :
    (m.write a b).wf = true :=
  Memory.wfFrom_write m 0 a b (Nat.zero_le a) ha h

/-- Writing bytes inside the address space keeps the canonical form. -/
theorem Memory.wf_writeBytes : ∀ (l : List Byte) (m : Memory) (a : Nat), a + l.length ≤ 4096 →
    m.wf = true → (m.writeBytes a l).wf = true
  | [], _, _, _, h => h
  | b :: rest, m, a, hl, h => by
    simp only [List.length_cons] at hl
    exact Memory.wf_writeBytes rest _ (a + 1) (by omega) (Memory.wf_write m a b (by omega) h)

/-- Everything a write of bytes does: the bytes at rising addresses, and no other address. -/
theorem Memory.read_writeBytes : ∀ (l : List Byte) (m : Memory) (a c : Nat), a + l.length ≤ 4096 →
    m.wf = true →
    (m.writeBytes a l).read c = if h : a ≤ c ∧ c - a < l.length then l[c - a]'h.2 else m.read c
  | [], m, a, c, _, _ => by simp [Memory.writeBytes]
  | b :: rest, m, a, c, hl, h => by
    simp only [List.length_cons] at hl
    have hw := Memory.wf_write m a b (by omega) h
    simp only [Memory.writeBytes]
    rw [Memory.read_writeBytes rest _ (a + 1) c (by omega) hw, Memory.read_write m a b c h]
    by_cases hc : a = c
    · subst hc
      have h1 : ¬ (a + 1 ≤ a ∧ a - (a + 1) < rest.length) := by omega
      simp
    · by_cases h2 : a + 1 ≤ c ∧ c - (a + 1) < rest.length
      · have h3 : a ≤ c ∧ c - a < (b :: rest).length := by simp only [List.length_cons]; omega
        have h4 : c - a = (c - (a + 1)) + 1 := by omega
        rw [dif_pos h2, dif_pos h3]
        simp [h4]
      · have h3 : ¬ (a ≤ c ∧ c - a < (b :: rest).length) := by simp only [List.length_cons]; omega
        rw [dif_neg h2, dif_neg h3, if_neg hc]

/-- A write of bytes leaves every address outside them alone. -/
theorem Memory.read_writeBytes_outside (l : List Byte) (m : Memory) (a c : Nat) (hl : a + l.length ≤ 4096)
    (h : m.wf = true) (hc : c < a ∨ a + l.length ≤ c) : (m.writeBytes a l).read c = m.read c := by
  rw [Memory.read_writeBytes l m a c hl h, dif_neg (by omega)]

theorem Memory.length_readBytes (m : Memory) (a n : Nat) : (m.readBytes a n).length = n := by
  simp [Memory.readBytes]

theorem Memory.getElem_readBytes (m : Memory) (a n k : Nat) (h : k < (m.readBytes a n).length) :
    (m.readBytes a n)[k] = m.read (a + k) := by
  simp [Memory.readBytes]

/-! ## Canonical memories that read alike are equal -/

theorem Memory.wfFrom_ext : ∀ (m n : Memory) (lo : Nat), Memory.wfFrom lo m = true →
    Memory.wfFrom lo n = true → (∀ a, Memory.read m a = Memory.read n a) → m = n
  | [], [], _, _, _, _ => rfl
  | [], (k, b) :: rest, lo, _, hn, h => by
    simp only [Memory.wfFrom, Bool.and_eq_true, decide_eq_true_eq] at hn
    exact absurd (by simpa [Memory.read] using (h k).symm) hn.1.2
  | (k, b) :: rest, [], lo, hm, _, h => by
    simp only [Memory.wfFrom, Bool.and_eq_true, decide_eq_true_eq] at hm
    exact absurd (by simpa [Memory.read] using h k) hm.1.2
  | (k, b) :: rest, (k', b') :: rest', lo, hm, hn, h => by
    have hm' := hm
    have hn' := hn
    simp only [Memory.wfFrom, Bool.and_eq_true, decide_eq_true_eq] at hm' hn'
    have hk : k = k' := by
      rcases Nat.lt_trichotomy k k' with hlt | heq | hgt
      · have hb : Memory.read ((k', b') :: rest') k = Memory.base k :=
          Memory.read_below _ k' k (by
            simp only [Memory.wfFrom, Bool.and_eq_true, decide_eq_true_eq]
            exact ⟨⟨⟨Nat.le_refl _, hn'.1.1.2⟩, hn'.1.2⟩, hn'.2⟩) hlt
        exact absurd (by rw [← hb, ← h k]; simp [Memory.read]) hm'.1.2
      · exact heq
      · have hb : Memory.read ((k, b) :: rest) k' = Memory.base k' :=
          Memory.read_below _ k k' (by
            simp only [Memory.wfFrom, Bool.and_eq_true, decide_eq_true_eq]
            exact ⟨⟨⟨Nat.le_refl _, hm'.1.1.2⟩, hm'.1.2⟩, hm'.2⟩) hgt
        exact absurd (by rw [← hb, h k']; simp [Memory.read]) hn'.1.2
    subst hk
    have hb : b = b' := by simpa [Memory.read] using h k
    subst hb
    have hr : rest = rest' := by
      apply Memory.wfFrom_ext rest rest' (k + 1) hm'.2 hn'.2
      intro a
      by_cases ha : k = a
      · subst ha
        rw [Memory.read_below rest (k + 1) k hm'.2 (by omega),
          Memory.read_below rest' (k + 1) k hn'.2 (by omega)]
      · simpa [Memory.read, ha] using h a
    rw [hr]

/-- Equal memories are equal data: two canonical memories that read alike at every address are equal. -/
theorem Memory.wf_ext (m n : Memory) (hm : m.wf = true) (hn : n.wf = true)
    (h : ∀ a, m.read a = n.read a) : m = n :=
  Memory.wfFrom_ext m n 0 hm hn h

/-- The reset memory is canonical. -/
theorem State.reset_mem_wf : State.reset.mem.wf = true := rfl

end Sys2Proof.Machine
end

