-- ==== Sys2Proof/Laws/State.lean ====
section
/-! SUPPORT. The small lemmas of the state: one for each field and each update, and for each accessor, so that no later
proof unfolds a record update. -/

namespace Sys2Proof.Machine

/-! ## The program counter and the compound updates, in terms of the single ones -/

@[simp] theorem State.next_eq (s : State) : s.next = s.setPc (s.pc + 2) := rfl
@[simp] theorem State.skipIf_eq (s : State) (c : Bool) :
    s.skipIf c = s.setPc (if c then s.pc + 4 else s.pc + 2) := rfl
@[simp] theorem State.setFlag_eq (s : State) (f : Bool) : s.setFlag f = s.setV 0xF (flagByte f) := rfl
@[simp] theorem State.setVFlag_eq (s : State) (x : Reg) (b : Byte) (f : Bool) :
    s.setVFlag x b f = (s.setV x b).setV 0xF (flagByte f) := rfl
@[simp] theorem State.tick_eq (s : State) :
    s.tick = (s.setDt (countDown s.dt)).setSt (countDown s.st) := rfl

/-! ## Fields -/

@[simp] theorem State.setV_mem (s : State) (x : Reg) (b : Byte) : (s.setV x b).mem = s.mem := rfl
@[simp] theorem State.setV_v (s : State) (x : Reg) (b : Byte) : (s.setV x b).v = s.v.set x b := rfl
@[simp] theorem State.setV_i (s : State) (x : Reg) (b : Byte) : (s.setV x b).i = s.i := rfl
@[simp] theorem State.setV_pc (s : State) (x : Reg) (b : Byte) : (s.setV x b).pc = s.pc := rfl
@[simp] theorem State.setV_stack (s : State) (x : Reg) (b : Byte) : (s.setV x b).stack = s.stack := rfl
@[simp] theorem State.setV_sp (s : State) (x : Reg) (b : Byte) : (s.setV x b).sp = s.sp := rfl
@[simp] theorem State.setV_dt (s : State) (x : Reg) (b : Byte) : (s.setV x b).dt = s.dt := rfl
@[simp] theorem State.setV_st (s : State) (x : Reg) (b : Byte) : (s.setV x b).st = s.st := rfl
@[simp] theorem State.setV_keys (s : State) (x : Reg) (b : Byte) : (s.setV x b).keys = s.keys := rfl
@[simp] theorem State.setV_display (s : State) (x : Reg) (b : Byte) : (s.setV x b).display = s.display := rfl
@[simp] theorem State.setV_rp (s : State) (x : Reg) (b : Byte) : (s.setV x b).rp = s.rp := rfl
@[simp] theorem State.setV_wait (s : State) (x : Reg) (b : Byte) : (s.setV x b).wait = s.wait := rfl
@[simp] theorem State.setV_fault (s : State) (x : Reg) (b : Byte) : (s.setV x b).fault = s.fault := rfl
@[simp] theorem State.setV_cfg (s : State) (x : Reg) (b : Byte) : (s.setV x b).cfg = s.cfg := rfl
@[simp] theorem State.setV_draws (s : State) (x : Reg) (b : Byte) : (s.setV x b).draws = s.draws := rfl
@[simp] theorem State.setV_reports (s : State) (x : Reg) (b : Byte) : (s.setV x b).reports = s.reports := rfl
@[simp] theorem State.setV_stackAt (s : State) (x : Reg) (b : Byte) (j : Fin 16) : (s.setV x b).stackAt j = s.stackAt j := rfl
@[simp] theorem State.setV_keyFlag (s : State) (x : Reg) (b : Byte) (j : Key) : (s.setV x b).keyFlag j = s.keyFlag j := rfl
@[simp] theorem State.setV_ea (s : State) (x : Reg) (b : Byte) (n : Nat) : (s.setV x b).ea n = s.ea n := rfl

@[simp] theorem State.setI_mem (s : State) (w : Word) : (s.setI w).mem = s.mem := rfl
@[simp] theorem State.setI_v (s : State) (w : Word) : (s.setI w).v = s.v := rfl
@[simp] theorem State.setI_i (s : State) (w : Word) : (s.setI w).i = w := rfl
@[simp] theorem State.setI_pc (s : State) (w : Word) : (s.setI w).pc = s.pc := rfl
@[simp] theorem State.setI_stack (s : State) (w : Word) : (s.setI w).stack = s.stack := rfl
@[simp] theorem State.setI_sp (s : State) (w : Word) : (s.setI w).sp = s.sp := rfl
@[simp] theorem State.setI_dt (s : State) (w : Word) : (s.setI w).dt = s.dt := rfl
@[simp] theorem State.setI_st (s : State) (w : Word) : (s.setI w).st = s.st := rfl
@[simp] theorem State.setI_keys (s : State) (w : Word) : (s.setI w).keys = s.keys := rfl
@[simp] theorem State.setI_display (s : State) (w : Word) : (s.setI w).display = s.display := rfl
@[simp] theorem State.setI_rp (s : State) (w : Word) : (s.setI w).rp = s.rp := rfl
@[simp] theorem State.setI_wait (s : State) (w : Word) : (s.setI w).wait = s.wait := rfl
@[simp] theorem State.setI_fault (s : State) (w : Word) : (s.setI w).fault = s.fault := rfl
@[simp] theorem State.setI_cfg (s : State) (w : Word) : (s.setI w).cfg = s.cfg := rfl
@[simp] theorem State.setI_draws (s : State) (w : Word) : (s.setI w).draws = s.draws := rfl
@[simp] theorem State.setI_reports (s : State) (w : Word) : (s.setI w).reports = s.reports := rfl
@[simp] theorem State.setI_getV (s : State) (w : Word) (q : Reg) : (s.setI w).getV q = s.getV q := rfl
@[simp] theorem State.setI_stackAt (s : State) (w : Word) (j : Fin 16) : (s.setI w).stackAt j = s.stackAt j := rfl
@[simp] theorem State.setI_keyFlag (s : State) (w : Word) (j : Key) : (s.setI w).keyFlag j = s.keyFlag j := rfl

@[simp] theorem State.setPc_mem (s : State) (w : Word) : (s.setPc w).mem = s.mem := rfl
@[simp] theorem State.setPc_v (s : State) (w : Word) : (s.setPc w).v = s.v := rfl
@[simp] theorem State.setPc_i (s : State) (w : Word) : (s.setPc w).i = s.i := rfl
@[simp] theorem State.setPc_pc (s : State) (w : Word) : (s.setPc w).pc = w := rfl
@[simp] theorem State.setPc_stack (s : State) (w : Word) : (s.setPc w).stack = s.stack := rfl
@[simp] theorem State.setPc_sp (s : State) (w : Word) : (s.setPc w).sp = s.sp := rfl
@[simp] theorem State.setPc_dt (s : State) (w : Word) : (s.setPc w).dt = s.dt := rfl
@[simp] theorem State.setPc_st (s : State) (w : Word) : (s.setPc w).st = s.st := rfl
@[simp] theorem State.setPc_keys (s : State) (w : Word) : (s.setPc w).keys = s.keys := rfl
@[simp] theorem State.setPc_display (s : State) (w : Word) : (s.setPc w).display = s.display := rfl
@[simp] theorem State.setPc_rp (s : State) (w : Word) : (s.setPc w).rp = s.rp := rfl
@[simp] theorem State.setPc_wait (s : State) (w : Word) : (s.setPc w).wait = s.wait := rfl
@[simp] theorem State.setPc_fault (s : State) (w : Word) : (s.setPc w).fault = s.fault := rfl
@[simp] theorem State.setPc_cfg (s : State) (w : Word) : (s.setPc w).cfg = s.cfg := rfl
@[simp] theorem State.setPc_draws (s : State) (w : Word) : (s.setPc w).draws = s.draws := rfl
@[simp] theorem State.setPc_reports (s : State) (w : Word) : (s.setPc w).reports = s.reports := rfl
@[simp] theorem State.setPc_getV (s : State) (w : Word) (q : Reg) : (s.setPc w).getV q = s.getV q := rfl
@[simp] theorem State.setPc_stackAt (s : State) (w : Word) (j : Fin 16) : (s.setPc w).stackAt j = s.stackAt j := rfl
@[simp] theorem State.setPc_keyFlag (s : State) (w : Word) (j : Key) : (s.setPc w).keyFlag j = s.keyFlag j := rfl
@[simp] theorem State.setPc_ea (s : State) (w : Word) (n : Nat) : (s.setPc w).ea n = s.ea n := rfl

@[simp] theorem State.setMem_mem (s : State) (m : Memory) : (s.setMem m).mem = m := rfl
@[simp] theorem State.setMem_v (s : State) (m : Memory) : (s.setMem m).v = s.v := rfl
@[simp] theorem State.setMem_i (s : State) (m : Memory) : (s.setMem m).i = s.i := rfl
@[simp] theorem State.setMem_pc (s : State) (m : Memory) : (s.setMem m).pc = s.pc := rfl
@[simp] theorem State.setMem_stack (s : State) (m : Memory) : (s.setMem m).stack = s.stack := rfl
@[simp] theorem State.setMem_sp (s : State) (m : Memory) : (s.setMem m).sp = s.sp := rfl
@[simp] theorem State.setMem_dt (s : State) (m : Memory) : (s.setMem m).dt = s.dt := rfl
@[simp] theorem State.setMem_st (s : State) (m : Memory) : (s.setMem m).st = s.st := rfl
@[simp] theorem State.setMem_keys (s : State) (m : Memory) : (s.setMem m).keys = s.keys := rfl
@[simp] theorem State.setMem_display (s : State) (m : Memory) : (s.setMem m).display = s.display := rfl
@[simp] theorem State.setMem_rp (s : State) (m : Memory) : (s.setMem m).rp = s.rp := rfl
@[simp] theorem State.setMem_wait (s : State) (m : Memory) : (s.setMem m).wait = s.wait := rfl
@[simp] theorem State.setMem_fault (s : State) (m : Memory) : (s.setMem m).fault = s.fault := rfl
@[simp] theorem State.setMem_cfg (s : State) (m : Memory) : (s.setMem m).cfg = s.cfg := rfl
@[simp] theorem State.setMem_draws (s : State) (m : Memory) : (s.setMem m).draws = s.draws := rfl
@[simp] theorem State.setMem_reports (s : State) (m : Memory) : (s.setMem m).reports = s.reports := rfl
@[simp] theorem State.setMem_getV (s : State) (m : Memory) (q : Reg) : (s.setMem m).getV q = s.getV q := rfl
@[simp] theorem State.setMem_stackAt (s : State) (m : Memory) (j : Fin 16) : (s.setMem m).stackAt j = s.stackAt j := rfl
@[simp] theorem State.setMem_keyFlag (s : State) (m : Memory) (j : Key) : (s.setMem m).keyFlag j = s.keyFlag j := rfl
@[simp] theorem State.setMem_ea (s : State) (m : Memory) (n : Nat) : (s.setMem m).ea n = s.ea n := rfl

@[simp] theorem State.setDt_mem (s : State) (b : Byte) : (s.setDt b).mem = s.mem := rfl
@[simp] theorem State.setDt_v (s : State) (b : Byte) : (s.setDt b).v = s.v := rfl
@[simp] theorem State.setDt_i (s : State) (b : Byte) : (s.setDt b).i = s.i := rfl
@[simp] theorem State.setDt_pc (s : State) (b : Byte) : (s.setDt b).pc = s.pc := rfl
@[simp] theorem State.setDt_stack (s : State) (b : Byte) : (s.setDt b).stack = s.stack := rfl
@[simp] theorem State.setDt_sp (s : State) (b : Byte) : (s.setDt b).sp = s.sp := rfl
@[simp] theorem State.setDt_dt (s : State) (b : Byte) : (s.setDt b).dt = b := rfl
@[simp] theorem State.setDt_st (s : State) (b : Byte) : (s.setDt b).st = s.st := rfl
@[simp] theorem State.setDt_keys (s : State) (b : Byte) : (s.setDt b).keys = s.keys := rfl
@[simp] theorem State.setDt_display (s : State) (b : Byte) : (s.setDt b).display = s.display := rfl
@[simp] theorem State.setDt_rp (s : State) (b : Byte) : (s.setDt b).rp = s.rp := rfl
@[simp] theorem State.setDt_wait (s : State) (b : Byte) : (s.setDt b).wait = s.wait := rfl
@[simp] theorem State.setDt_fault (s : State) (b : Byte) : (s.setDt b).fault = s.fault := rfl
@[simp] theorem State.setDt_cfg (s : State) (b : Byte) : (s.setDt b).cfg = s.cfg := rfl
@[simp] theorem State.setDt_draws (s : State) (b : Byte) : (s.setDt b).draws = s.draws := rfl
@[simp] theorem State.setDt_reports (s : State) (b : Byte) : (s.setDt b).reports = s.reports := rfl
@[simp] theorem State.setDt_getV (s : State) (b : Byte) (q : Reg) : (s.setDt b).getV q = s.getV q := rfl
@[simp] theorem State.setDt_stackAt (s : State) (b : Byte) (j : Fin 16) : (s.setDt b).stackAt j = s.stackAt j := rfl
@[simp] theorem State.setDt_keyFlag (s : State) (b : Byte) (j : Key) : (s.setDt b).keyFlag j = s.keyFlag j := rfl
@[simp] theorem State.setDt_ea (s : State) (b : Byte) (n : Nat) : (s.setDt b).ea n = s.ea n := rfl

@[simp] theorem State.setSt_mem (s : State) (b : Byte) : (s.setSt b).mem = s.mem := rfl
@[simp] theorem State.setSt_v (s : State) (b : Byte) : (s.setSt b).v = s.v := rfl
@[simp] theorem State.setSt_i (s : State) (b : Byte) : (s.setSt b).i = s.i := rfl
@[simp] theorem State.setSt_pc (s : State) (b : Byte) : (s.setSt b).pc = s.pc := rfl
@[simp] theorem State.setSt_stack (s : State) (b : Byte) : (s.setSt b).stack = s.stack := rfl
@[simp] theorem State.setSt_sp (s : State) (b : Byte) : (s.setSt b).sp = s.sp := rfl
@[simp] theorem State.setSt_dt (s : State) (b : Byte) : (s.setSt b).dt = s.dt := rfl
@[simp] theorem State.setSt_st (s : State) (b : Byte) : (s.setSt b).st = b := rfl
@[simp] theorem State.setSt_keys (s : State) (b : Byte) : (s.setSt b).keys = s.keys := rfl
@[simp] theorem State.setSt_display (s : State) (b : Byte) : (s.setSt b).display = s.display := rfl
@[simp] theorem State.setSt_rp (s : State) (b : Byte) : (s.setSt b).rp = s.rp := rfl
@[simp] theorem State.setSt_wait (s : State) (b : Byte) : (s.setSt b).wait = s.wait := rfl
@[simp] theorem State.setSt_fault (s : State) (b : Byte) : (s.setSt b).fault = s.fault := rfl
@[simp] theorem State.setSt_cfg (s : State) (b : Byte) : (s.setSt b).cfg = s.cfg := rfl
@[simp] theorem State.setSt_draws (s : State) (b : Byte) : (s.setSt b).draws = s.draws := rfl
@[simp] theorem State.setSt_reports (s : State) (b : Byte) : (s.setSt b).reports = s.reports := rfl
@[simp] theorem State.setSt_getV (s : State) (b : Byte) (q : Reg) : (s.setSt b).getV q = s.getV q := rfl
@[simp] theorem State.setSt_stackAt (s : State) (b : Byte) (j : Fin 16) : (s.setSt b).stackAt j = s.stackAt j := rfl
@[simp] theorem State.setSt_keyFlag (s : State) (b : Byte) (j : Key) : (s.setSt b).keyFlag j = s.keyFlag j := rfl
@[simp] theorem State.setSt_ea (s : State) (b : Byte) (n : Nat) : (s.setSt b).ea n = s.ea n := rfl

@[simp] theorem State.setKeyFlag_mem (s : State) (k : Key) (p : Bool) : (s.setKeyFlag k p).mem = s.mem := rfl
@[simp] theorem State.setKeyFlag_v (s : State) (k : Key) (p : Bool) : (s.setKeyFlag k p).v = s.v := rfl
@[simp] theorem State.setKeyFlag_i (s : State) (k : Key) (p : Bool) : (s.setKeyFlag k p).i = s.i := rfl
@[simp] theorem State.setKeyFlag_pc (s : State) (k : Key) (p : Bool) : (s.setKeyFlag k p).pc = s.pc := rfl
@[simp] theorem State.setKeyFlag_stack (s : State) (k : Key) (p : Bool) : (s.setKeyFlag k p).stack = s.stack := rfl
@[simp] theorem State.setKeyFlag_sp (s : State) (k : Key) (p : Bool) : (s.setKeyFlag k p).sp = s.sp := rfl
@[simp] theorem State.setKeyFlag_dt (s : State) (k : Key) (p : Bool) : (s.setKeyFlag k p).dt = s.dt := rfl
@[simp] theorem State.setKeyFlag_st (s : State) (k : Key) (p : Bool) : (s.setKeyFlag k p).st = s.st := rfl
@[simp] theorem State.setKeyFlag_keys (s : State) (k : Key) (p : Bool) : (s.setKeyFlag k p).keys = s.keys.set k p := rfl
@[simp] theorem State.setKeyFlag_display (s : State) (k : Key) (p : Bool) : (s.setKeyFlag k p).display = s.display := rfl
@[simp] theorem State.setKeyFlag_rp (s : State) (k : Key) (p : Bool) : (s.setKeyFlag k p).rp = s.rp := rfl
@[simp] theorem State.setKeyFlag_wait (s : State) (k : Key) (p : Bool) : (s.setKeyFlag k p).wait = s.wait := rfl
@[simp] theorem State.setKeyFlag_fault (s : State) (k : Key) (p : Bool) : (s.setKeyFlag k p).fault = s.fault := rfl
@[simp] theorem State.setKeyFlag_cfg (s : State) (k : Key) (p : Bool) : (s.setKeyFlag k p).cfg = s.cfg := rfl
@[simp] theorem State.setKeyFlag_draws (s : State) (k : Key) (p : Bool) : (s.setKeyFlag k p).draws = s.draws := rfl
@[simp] theorem State.setKeyFlag_reports (s : State) (k : Key) (p : Bool) : (s.setKeyFlag k p).reports = s.reports := rfl
@[simp] theorem State.setKeyFlag_getV (s : State) (k : Key) (p : Bool) (q : Reg) : (s.setKeyFlag k p).getV q = s.getV q := rfl
@[simp] theorem State.setKeyFlag_stackAt (s : State) (k : Key) (p : Bool) (j : Fin 16) : (s.setKeyFlag k p).stackAt j = s.stackAt j := rfl
@[simp] theorem State.setKeyFlag_ea (s : State) (k : Key) (p : Bool) (n : Nat) : (s.setKeyFlag k p).ea n = s.ea n := rfl

@[simp] theorem State.showScreen_mem (s : State) (d : Screen) : (s.showScreen d).mem = s.mem := rfl
@[simp] theorem State.showScreen_v (s : State) (d : Screen) : (s.showScreen d).v = s.v := rfl
@[simp] theorem State.showScreen_i (s : State) (d : Screen) : (s.showScreen d).i = s.i := rfl
@[simp] theorem State.showScreen_pc (s : State) (d : Screen) : (s.showScreen d).pc = s.pc := rfl
@[simp] theorem State.showScreen_stack (s : State) (d : Screen) : (s.showScreen d).stack = s.stack := rfl
@[simp] theorem State.showScreen_sp (s : State) (d : Screen) : (s.showScreen d).sp = s.sp := rfl
@[simp] theorem State.showScreen_dt (s : State) (d : Screen) : (s.showScreen d).dt = s.dt := rfl
@[simp] theorem State.showScreen_st (s : State) (d : Screen) : (s.showScreen d).st = s.st := rfl
@[simp] theorem State.showScreen_keys (s : State) (d : Screen) : (s.showScreen d).keys = s.keys := rfl
@[simp] theorem State.showScreen_display (s : State) (d : Screen) : (s.showScreen d).display = d := rfl
@[simp] theorem State.showScreen_rp (s : State) (d : Screen) : (s.showScreen d).rp = true := rfl
@[simp] theorem State.showScreen_wait (s : State) (d : Screen) : (s.showScreen d).wait = s.wait := rfl
@[simp] theorem State.showScreen_fault (s : State) (d : Screen) : (s.showScreen d).fault = s.fault := rfl
@[simp] theorem State.showScreen_cfg (s : State) (d : Screen) : (s.showScreen d).cfg = s.cfg := rfl
@[simp] theorem State.showScreen_draws (s : State) (d : Screen) : (s.showScreen d).draws = s.draws := rfl
@[simp] theorem State.showScreen_reports (s : State) (d : Screen) : (s.showScreen d).reports = s.reports := rfl
@[simp] theorem State.showScreen_getV (s : State) (d : Screen) (q : Reg) : (s.showScreen d).getV q = s.getV q := rfl
@[simp] theorem State.showScreen_stackAt (s : State) (d : Screen) (j : Fin 16) : (s.showScreen d).stackAt j = s.stackAt j := rfl
@[simp] theorem State.showScreen_keyFlag (s : State) (d : Screen) (j : Key) : (s.showScreen d).keyFlag j = s.keyFlag j := rfl
@[simp] theorem State.showScreen_ea (s : State) (d : Screen) (n : Nat) : (s.showScreen d).ea n = s.ea n := rfl

@[simp] theorem State.clearRp_mem (s : State) : (s.clearRp).mem = s.mem := rfl
@[simp] theorem State.clearRp_v (s : State) : (s.clearRp).v = s.v := rfl
@[simp] theorem State.clearRp_i (s : State) : (s.clearRp).i = s.i := rfl
@[simp] theorem State.clearRp_pc (s : State) : (s.clearRp).pc = s.pc := rfl
@[simp] theorem State.clearRp_stack (s : State) : (s.clearRp).stack = s.stack := rfl
@[simp] theorem State.clearRp_sp (s : State) : (s.clearRp).sp = s.sp := rfl
@[simp] theorem State.clearRp_dt (s : State) : (s.clearRp).dt = s.dt := rfl
@[simp] theorem State.clearRp_st (s : State) : (s.clearRp).st = s.st := rfl
@[simp] theorem State.clearRp_keys (s : State) : (s.clearRp).keys = s.keys := rfl
@[simp] theorem State.clearRp_display (s : State) : (s.clearRp).display = s.display := rfl
@[simp] theorem State.clearRp_rp (s : State) : (s.clearRp).rp = false := rfl
@[simp] theorem State.clearRp_wait (s : State) : (s.clearRp).wait = s.wait := rfl
@[simp] theorem State.clearRp_fault (s : State) : (s.clearRp).fault = s.fault := rfl
@[simp] theorem State.clearRp_cfg (s : State) : (s.clearRp).cfg = s.cfg := rfl
@[simp] theorem State.clearRp_draws (s : State) : (s.clearRp).draws = s.draws := rfl
@[simp] theorem State.clearRp_reports (s : State) : (s.clearRp).reports = s.reports := rfl
@[simp] theorem State.clearRp_getV (s : State) (q : Reg) : (s.clearRp).getV q = s.getV q := rfl
@[simp] theorem State.clearRp_stackAt (s : State) (j : Fin 16) : (s.clearRp).stackAt j = s.stackAt j := rfl
@[simp] theorem State.clearRp_keyFlag (s : State) (j : Key) : (s.clearRp).keyFlag j = s.keyFlag j := rfl
@[simp] theorem State.clearRp_ea (s : State) (n : Nat) : (s.clearRp).ea n = s.ea n := rfl

@[simp] theorem State.setWait_mem (s : State) (w : Option Reg) : (s.setWait w).mem = s.mem := rfl
@[simp] theorem State.setWait_v (s : State) (w : Option Reg) : (s.setWait w).v = s.v := rfl
@[simp] theorem State.setWait_i (s : State) (w : Option Reg) : (s.setWait w).i = s.i := rfl
@[simp] theorem State.setWait_pc (s : State) (w : Option Reg) : (s.setWait w).pc = s.pc := rfl
@[simp] theorem State.setWait_stack (s : State) (w : Option Reg) : (s.setWait w).stack = s.stack := rfl
@[simp] theorem State.setWait_sp (s : State) (w : Option Reg) : (s.setWait w).sp = s.sp := rfl
@[simp] theorem State.setWait_dt (s : State) (w : Option Reg) : (s.setWait w).dt = s.dt := rfl
@[simp] theorem State.setWait_st (s : State) (w : Option Reg) : (s.setWait w).st = s.st := rfl
@[simp] theorem State.setWait_keys (s : State) (w : Option Reg) : (s.setWait w).keys = s.keys := rfl
@[simp] theorem State.setWait_display (s : State) (w : Option Reg) : (s.setWait w).display = s.display := rfl
@[simp] theorem State.setWait_rp (s : State) (w : Option Reg) : (s.setWait w).rp = s.rp := rfl
@[simp] theorem State.setWait_wait (s : State) (w : Option Reg) : (s.setWait w).wait = w := rfl
@[simp] theorem State.setWait_fault (s : State) (w : Option Reg) : (s.setWait w).fault = s.fault := rfl
@[simp] theorem State.setWait_cfg (s : State) (w : Option Reg) : (s.setWait w).cfg = s.cfg := rfl
@[simp] theorem State.setWait_draws (s : State) (w : Option Reg) : (s.setWait w).draws = s.draws := rfl
@[simp] theorem State.setWait_reports (s : State) (w : Option Reg) : (s.setWait w).reports = s.reports := rfl
@[simp] theorem State.setWait_getV (s : State) (w : Option Reg) (q : Reg) : (s.setWait w).getV q = s.getV q := rfl
@[simp] theorem State.setWait_stackAt (s : State) (w : Option Reg) (j : Fin 16) : (s.setWait w).stackAt j = s.stackAt j := rfl
@[simp] theorem State.setWait_keyFlag (s : State) (w : Option Reg) (j : Key) : (s.setWait w).keyFlag j = s.keyFlag j := rfl
@[simp] theorem State.setWait_ea (s : State) (w : Option Reg) (n : Nat) : (s.setWait w).ea n = s.ea n := rfl

@[simp] theorem State.drawn_mem (s : State) : (s.drawn).mem = s.mem := rfl
@[simp] theorem State.drawn_v (s : State) : (s.drawn).v = s.v := rfl
@[simp] theorem State.drawn_i (s : State) : (s.drawn).i = s.i := rfl
@[simp] theorem State.drawn_pc (s : State) : (s.drawn).pc = s.pc := rfl
@[simp] theorem State.drawn_stack (s : State) : (s.drawn).stack = s.stack := rfl
@[simp] theorem State.drawn_sp (s : State) : (s.drawn).sp = s.sp := rfl
@[simp] theorem State.drawn_dt (s : State) : (s.drawn).dt = s.dt := rfl
@[simp] theorem State.drawn_st (s : State) : (s.drawn).st = s.st := rfl
@[simp] theorem State.drawn_keys (s : State) : (s.drawn).keys = s.keys := rfl
@[simp] theorem State.drawn_display (s : State) : (s.drawn).display = s.display := rfl
@[simp] theorem State.drawn_rp (s : State) : (s.drawn).rp = s.rp := rfl
@[simp] theorem State.drawn_wait (s : State) : (s.drawn).wait = s.wait := rfl
@[simp] theorem State.drawn_fault (s : State) : (s.drawn).fault = s.fault := rfl
@[simp] theorem State.drawn_cfg (s : State) : (s.drawn).cfg = s.cfg := rfl
@[simp] theorem State.drawn_draws (s : State) : (s.drawn).draws = s.draws + 1 := rfl
@[simp] theorem State.drawn_reports (s : State) : (s.drawn).reports = s.reports := rfl
@[simp] theorem State.drawn_getV (s : State) (q : Reg) : (s.drawn).getV q = s.getV q := rfl
@[simp] theorem State.drawn_stackAt (s : State) (j : Fin 16) : (s.drawn).stackAt j = s.stackAt j := rfl
@[simp] theorem State.drawn_keyFlag (s : State) (j : Key) : (s.drawn).keyFlag j = s.keyFlag j := rfl
@[simp] theorem State.drawn_ea (s : State) (n : Nat) : (s.drawn).ea n = s.ea n := rfl

@[simp] theorem State.push_mem (s : State) (w : Word) (h : s.sp.val ≠ 16) : (s.push w h).mem = s.mem := rfl
@[simp] theorem State.push_v (s : State) (w : Word) (h : s.sp.val ≠ 16) : (s.push w h).v = s.v := rfl
@[simp] theorem State.push_i (s : State) (w : Word) (h : s.sp.val ≠ 16) : (s.push w h).i = s.i := rfl
@[simp] theorem State.push_pc (s : State) (w : Word) (h : s.sp.val ≠ 16) : (s.push w h).pc = s.pc := rfl
@[simp] theorem State.push_stack (s : State) (w : Word) (h : s.sp.val ≠ 16) : (s.push w h).stack = s.stack.set s.sp.val w (by omega) := rfl
@[simp] theorem State.push_sp (s : State) (w : Word) (h : s.sp.val ≠ 16) : (s.push w h).sp = ⟨s.sp.val + 1, by omega⟩ := rfl
@[simp] theorem State.push_dt (s : State) (w : Word) (h : s.sp.val ≠ 16) : (s.push w h).dt = s.dt := rfl
@[simp] theorem State.push_st (s : State) (w : Word) (h : s.sp.val ≠ 16) : (s.push w h).st = s.st := rfl
@[simp] theorem State.push_keys (s : State) (w : Word) (h : s.sp.val ≠ 16) : (s.push w h).keys = s.keys := rfl
@[simp] theorem State.push_display (s : State) (w : Word) (h : s.sp.val ≠ 16) : (s.push w h).display = s.display := rfl
@[simp] theorem State.push_rp (s : State) (w : Word) (h : s.sp.val ≠ 16) : (s.push w h).rp = s.rp := rfl
@[simp] theorem State.push_wait (s : State) (w : Word) (h : s.sp.val ≠ 16) : (s.push w h).wait = s.wait := rfl
@[simp] theorem State.push_fault (s : State) (w : Word) (h : s.sp.val ≠ 16) : (s.push w h).fault = s.fault := rfl
@[simp] theorem State.push_cfg (s : State) (w : Word) (h : s.sp.val ≠ 16) : (s.push w h).cfg = s.cfg := rfl
@[simp] theorem State.push_draws (s : State) (w : Word) (h : s.sp.val ≠ 16) : (s.push w h).draws = s.draws := rfl
@[simp] theorem State.push_reports (s : State) (w : Word) (h : s.sp.val ≠ 16) : (s.push w h).reports = s.reports := rfl
@[simp] theorem State.push_getV (s : State) (w : Word) (h : s.sp.val ≠ 16) (q : Reg) : (s.push w h).getV q = s.getV q := rfl
@[simp] theorem State.push_keyFlag (s : State) (w : Word) (h : s.sp.val ≠ 16) (j : Key) : (s.push w h).keyFlag j = s.keyFlag j := rfl
@[simp] theorem State.push_ea (s : State) (w : Word) (h : s.sp.val ≠ 16) (n : Nat) : (s.push w h).ea n = s.ea n := rfl

@[simp] theorem State.pop_mem (s : State) (h : s.sp.val ≠ 0) : (s.pop h).mem = s.mem := rfl
@[simp] theorem State.pop_v (s : State) (h : s.sp.val ≠ 0) : (s.pop h).v = s.v := rfl
@[simp] theorem State.pop_i (s : State) (h : s.sp.val ≠ 0) : (s.pop h).i = s.i := rfl
@[simp] theorem State.pop_pc (s : State) (h : s.sp.val ≠ 0) : (s.pop h).pc = s.pc := rfl
@[simp] theorem State.pop_stack (s : State) (h : s.sp.val ≠ 0) : (s.pop h).stack = s.stack := rfl
@[simp] theorem State.pop_sp (s : State) (h : s.sp.val ≠ 0) : (s.pop h).sp = ⟨s.sp.val - 1, by omega⟩ := rfl
@[simp] theorem State.pop_dt (s : State) (h : s.sp.val ≠ 0) : (s.pop h).dt = s.dt := rfl
@[simp] theorem State.pop_st (s : State) (h : s.sp.val ≠ 0) : (s.pop h).st = s.st := rfl
@[simp] theorem State.pop_keys (s : State) (h : s.sp.val ≠ 0) : (s.pop h).keys = s.keys := rfl
@[simp] theorem State.pop_display (s : State) (h : s.sp.val ≠ 0) : (s.pop h).display = s.display := rfl
@[simp] theorem State.pop_rp (s : State) (h : s.sp.val ≠ 0) : (s.pop h).rp = s.rp := rfl
@[simp] theorem State.pop_wait (s : State) (h : s.sp.val ≠ 0) : (s.pop h).wait = s.wait := rfl
@[simp] theorem State.pop_fault (s : State) (h : s.sp.val ≠ 0) : (s.pop h).fault = s.fault := rfl
@[simp] theorem State.pop_cfg (s : State) (h : s.sp.val ≠ 0) : (s.pop h).cfg = s.cfg := rfl
@[simp] theorem State.pop_draws (s : State) (h : s.sp.val ≠ 0) : (s.pop h).draws = s.draws := rfl
@[simp] theorem State.pop_reports (s : State) (h : s.sp.val ≠ 0) : (s.pop h).reports = s.reports := rfl
@[simp] theorem State.pop_getV (s : State) (h : s.sp.val ≠ 0) (q : Reg) : (s.pop h).getV q = s.getV q := rfl
@[simp] theorem State.pop_stackAt (s : State) (h : s.sp.val ≠ 0) (j : Fin 16) : (s.pop h).stackAt j = s.stackAt j := rfl
@[simp] theorem State.pop_keyFlag (s : State) (h : s.sp.val ≠ 0) (j : Key) : (s.pop h).keyFlag j = s.keyFlag j := rfl
@[simp] theorem State.pop_ea (s : State) (h : s.sp.val ≠ 0) (n : Nat) : (s.pop h).ea n = s.ea n := rfl

@[simp] theorem State.raise_mem (s : State) (c : FaultCause) (info : Word) : (s.raise c info).mem = s.mem := rfl
@[simp] theorem State.raise_v (s : State) (c : FaultCause) (info : Word) : (s.raise c info).v = s.v := rfl
@[simp] theorem State.raise_i (s : State) (c : FaultCause) (info : Word) : (s.raise c info).i = s.i := rfl
@[simp] theorem State.raise_pc (s : State) (c : FaultCause) (info : Word) : (s.raise c info).pc = s.pc := rfl
@[simp] theorem State.raise_stack (s : State) (c : FaultCause) (info : Word) : (s.raise c info).stack = s.stack := rfl
@[simp] theorem State.raise_sp (s : State) (c : FaultCause) (info : Word) : (s.raise c info).sp = s.sp := rfl
@[simp] theorem State.raise_dt (s : State) (c : FaultCause) (info : Word) : (s.raise c info).dt = s.dt := rfl
@[simp] theorem State.raise_st (s : State) (c : FaultCause) (info : Word) : (s.raise c info).st = s.st := rfl
@[simp] theorem State.raise_keys (s : State) (c : FaultCause) (info : Word) : (s.raise c info).keys = s.keys := rfl
@[simp] theorem State.raise_display (s : State) (c : FaultCause) (info : Word) : (s.raise c info).display = s.display := rfl
@[simp] theorem State.raise_rp (s : State) (c : FaultCause) (info : Word) : (s.raise c info).rp = s.rp := rfl
@[simp] theorem State.raise_wait (s : State) (c : FaultCause) (info : Word) : (s.raise c info).wait = s.wait := rfl
@[simp] theorem State.raise_fault (s : State) (c : FaultCause) (info : Word) : (s.raise c info).fault = some ⟨c, s.pc, info⟩ := rfl
@[simp] theorem State.raise_cfg (s : State) (c : FaultCause) (info : Word) : (s.raise c info).cfg = s.cfg := rfl
@[simp] theorem State.raise_draws (s : State) (c : FaultCause) (info : Word) : (s.raise c info).draws = s.draws := rfl
@[simp] theorem State.raise_reports (s : State) (c : FaultCause) (info : Word) : (s.raise c info).reports = s.reports := rfl
@[simp] theorem State.raise_getV (s : State) (c : FaultCause) (info : Word) (q : Reg) : (s.raise c info).getV q = s.getV q := rfl
@[simp] theorem State.raise_stackAt (s : State) (c : FaultCause) (info : Word) (j : Fin 16) : (s.raise c info).stackAt j = s.stackAt j := rfl
@[simp] theorem State.raise_keyFlag (s : State) (c : FaultCause) (info : Word) (j : Key) : (s.raise c info).keyFlag j = s.keyFlag j := rfl
@[simp] theorem State.raise_ea (s : State) (c : FaultCause) (info : Word) (n : Nat) : (s.raise c info).ea n = s.ea n := rfl

@[simp] theorem State.emit_mem (s : State) (r : Report) : (s.emit r).mem = s.mem := rfl
@[simp] theorem State.emit_v (s : State) (r : Report) : (s.emit r).v = s.v := rfl
@[simp] theorem State.emit_i (s : State) (r : Report) : (s.emit r).i = s.i := rfl
@[simp] theorem State.emit_pc (s : State) (r : Report) : (s.emit r).pc = s.pc := rfl
@[simp] theorem State.emit_stack (s : State) (r : Report) : (s.emit r).stack = s.stack := rfl
@[simp] theorem State.emit_sp (s : State) (r : Report) : (s.emit r).sp = s.sp := rfl
@[simp] theorem State.emit_dt (s : State) (r : Report) : (s.emit r).dt = s.dt := rfl
@[simp] theorem State.emit_st (s : State) (r : Report) : (s.emit r).st = s.st := rfl
@[simp] theorem State.emit_keys (s : State) (r : Report) : (s.emit r).keys = s.keys := rfl
@[simp] theorem State.emit_display (s : State) (r : Report) : (s.emit r).display = s.display := rfl
@[simp] theorem State.emit_rp (s : State) (r : Report) : (s.emit r).rp = s.rp := rfl
@[simp] theorem State.emit_wait (s : State) (r : Report) : (s.emit r).wait = s.wait := rfl
@[simp] theorem State.emit_fault (s : State) (r : Report) : (s.emit r).fault = s.fault := rfl
@[simp] theorem State.emit_cfg (s : State) (r : Report) : (s.emit r).cfg = s.cfg := rfl
@[simp] theorem State.emit_draws (s : State) (r : Report) : (s.emit r).draws = s.draws := rfl
@[simp] theorem State.emit_reports (s : State) (r : Report) : (s.emit r).reports = r :: s.reports := rfl
@[simp] theorem State.emit_getV (s : State) (r : Report) (q : Reg) : (s.emit r).getV q = s.getV q := rfl
@[simp] theorem State.emit_stackAt (s : State) (r : Report) (j : Fin 16) : (s.emit r).stackAt j = s.stackAt j := rfl
@[simp] theorem State.emit_keyFlag (s : State) (r : Report) (j : Key) : (s.emit r).keyFlag j = s.keyFlag j := rfl
@[simp] theorem State.emit_ea (s : State) (r : Report) (n : Nat) : (s.emit r).ea n = s.ea n := rfl

@[simp] theorem State.loadRegs_mem (s : State) (x : Reg) : (s.loadRegs x).mem = s.mem := rfl
@[simp] theorem State.loadRegs_i (s : State) (x : Reg) : (s.loadRegs x).i = s.i := rfl
@[simp] theorem State.loadRegs_pc (s : State) (x : Reg) : (s.loadRegs x).pc = s.pc := rfl
@[simp] theorem State.loadRegs_stack (s : State) (x : Reg) : (s.loadRegs x).stack = s.stack := rfl
@[simp] theorem State.loadRegs_sp (s : State) (x : Reg) : (s.loadRegs x).sp = s.sp := rfl
@[simp] theorem State.loadRegs_dt (s : State) (x : Reg) : (s.loadRegs x).dt = s.dt := rfl
@[simp] theorem State.loadRegs_st (s : State) (x : Reg) : (s.loadRegs x).st = s.st := rfl
@[simp] theorem State.loadRegs_keys (s : State) (x : Reg) : (s.loadRegs x).keys = s.keys := rfl
@[simp] theorem State.loadRegs_display (s : State) (x : Reg) : (s.loadRegs x).display = s.display := rfl
@[simp] theorem State.loadRegs_rp (s : State) (x : Reg) : (s.loadRegs x).rp = s.rp := rfl
@[simp] theorem State.loadRegs_wait (s : State) (x : Reg) : (s.loadRegs x).wait = s.wait := rfl
@[simp] theorem State.loadRegs_fault (s : State) (x : Reg) : (s.loadRegs x).fault = s.fault := rfl
@[simp] theorem State.loadRegs_cfg (s : State) (x : Reg) : (s.loadRegs x).cfg = s.cfg := rfl
@[simp] theorem State.loadRegs_draws (s : State) (x : Reg) : (s.loadRegs x).draws = s.draws := rfl
@[simp] theorem State.loadRegs_reports (s : State) (x : Reg) : (s.loadRegs x).reports = s.reports := rfl
@[simp] theorem State.loadRegs_stackAt (s : State) (x : Reg) (j : Fin 16) : (s.loadRegs x).stackAt j = s.stackAt j := rfl
@[simp] theorem State.loadRegs_keyFlag (s : State) (x : Reg) (j : Key) : (s.loadRegs x).keyFlag j = s.keyFlag j := rfl
@[simp] theorem State.loadRegs_ea (s : State) (x : Reg) (n : Nat) : (s.loadRegs x).ea n = s.ea n := rfl

/-! ## Accessors of the written field -/

@[simp] theorem State.getV_setV (s : State) (x y : Reg) (b : Byte) :
    (s.setV x b).getV y = if x = y then b else s.getV y := by
  simp [State.setV, State.getV, Vector.getElem_set, Fin.ext_iff]

@[simp] theorem State.keyFlag_setKeyFlag (s : State) (k j : Key) (p : Bool) :
    (s.setKeyFlag k p).keyFlag j = if k = j then p else s.keyFlag j := by
  simp [State.setKeyFlag, State.keyFlag, Vector.getElem_set, Fin.ext_iff]

@[simp] theorem State.stackAt_push (s : State) (w : Word) (h : s.sp.val ≠ 16) (j : Fin 16) :
    (s.push w h).stackAt j = if s.sp.val = j.val then w else s.stackAt j := by
  simp [State.push, State.stackAt, Vector.getElem_set]

@[simp] theorem State.getV_loadRegs (s : State) (x r : Reg) :
    (s.loadRegs x).getV r = if r ≤ x then s.mem.read (s.ea r.val) else s.getV r := by
  simp [State.loadRegs, State.getV]

/-! ## Conditional updates -/

/-- `advanceI` writes I alone. -/
theorem State.advanceI_eq (s : State) (x : Reg) :
    s.advanceI x = s.setI
      (if s.cfg.loadStoreIncrementsI then BitVec.ofNat 16 (s.i.toNat + x.val + 1) else s.i) := by
  unfold State.advanceI; split <;> rfl

/-- `stepTick` writes the timers alone. -/
theorem State.stepTick_eq (s : State) :
    s.stepTick = (s.setDt (if s.cfg.timerMode = .perStep then countDown s.dt else s.dt)).setSt
      (if s.cfg.timerMode = .perStep then countDown s.st else s.st) := by
  unfold State.stepTick; split <;> rfl

/-- `endStep` writes the timers alone: they count down when `per_step` is chosen and the state is not held. -/
theorem State.endStep_eq (s : State) :
    s.endStep =
      (s.setDt (if s.cfg.timerMode = .perStep ∧ s.held = false then countDown s.dt else s.dt)).setSt
        (if s.cfg.timerMode = .perStep ∧ s.held = false then countDown s.st else s.st) := by
  unfold State.endStep State.stepTick
  cases h : s.held <;> by_cases hp : s.cfg.timerMode = .perStep <;> simp [hp] <;> rfl

end Sys2Proof.Machine
end

