-- ==== Sys2Proof/Laws/Ops.lean ====
section
/-! SUPPORT. What the shared operations can do, each said once: the access check, the flags as numbers, the timers, the
fetch, the held states, and reset. -/

namespace Sys2Proof.Machine

/-! ## Effective addresses (R62, R63 of 20_memory.md) -/

theorem State.accessOk_iff (s : State) (n : Nat) :
    s.accessOk n = true ↔ n = 0 ∨ s.i.toNat + (n - 1) ≤ 0xFFF :=
  decide_eq_true_iff

/-- An access that exists takes its effect. -/
theorem State.withAccess_ok (s : State) (n : Nat) (f : State → State) (h : s.accessOk n = true) :
    s.withAccess n f = f s := by
  simp [State.withAccess, h]

/-- An access that does not exist raises MEM_RANGE, whatever the effect. -/
theorem State.withAccess_fault (s : State) (n : Nat) (f : State → State) (h : s.accessOk n = false) :
    s.withAccess n f = s.raise .memRange s.firstOutside := by
  simp [State.withAccess, h]

/-- The first address above 0xFFF is max(I, 0x1000) (R271). -/
theorem State.toNat_firstOutside (s : State) : s.firstOutside.toNat = max s.i.toNat 0x1000 := by
  unfold State.firstOutside
  split
  · simp; omega
  · omega

/-! ## Flags as numbers (R24 of 10_state.md) -/

@[simp] theorem flagByte_true : flagByte true = 1 := rfl
@[simp] theorem flagByte_false : flagByte false = 0 := rfl

theorem carryFlag_iff (a b : Byte) : carryFlag a b = true ↔ 255 < a.toNat + b.toNat := by simp [carryFlag]
theorem noBorrowFlag_iff (a b : Byte) : noBorrowFlag a b = true ↔ b.toNat ≤ a.toNat := by simp [noBorrowFlag]
theorem rangeFlag_iff (i : Word) (a : Byte) : rangeFlag i a = true ↔ 0xFFF < i.toNat + a.toNat := by
  simp [rangeFlag]

/-- A flag is 0x00 or 0x01 (R22). -/
theorem flagByte_le_one (f : Bool) : (flagByte f).toNat ≤ 1 := by cases f <;> decide

/-! ## Widened values (R10 of 00_scope.md) -/

@[simp] theorem toNat_addrWord (nnn : Addr12) : (addrWord nnn).toNat = nnn.toNat := by
  have := nnn.isLt
  simp [addrWord]; omega

@[simp] theorem toNat_byteWord (b : Byte) : (byteWord b).toNat = b.toNat := by
  have := b.isLt
  simp [byteWord]; omega

/-- A glyph's address never wraps (R212). -/
theorem toNat_glyphAddr (b : Byte) : (glyphAddr b).toNat = b.toNat * 5 := by
  have := b.isLt
  simp [glyphAddr]; omega

theorem toNat_natByte (n : Nat) : (natByte n).toNat = n % 256 := by simp [natByte]

/-! ## The register block (R214, R215 of 43_index_memory.md) -/

theorem State.length_regsUpTo (s : State) (x : Reg) : (s.regsUpTo x).length = x.val + 1 := by
  simp [State.regsUpTo]

theorem State.getElem_regsUpTo (s : State) (x : Reg) (k : Nat) (hk : k < 16) (h : k < (s.regsUpTo x).length) :
    (s.regsUpTo x)[k] = s.getV ⟨k, hk⟩ := by
  simp [State.regsUpTo, State.getV]

theorem length_decimalDigits (b : Byte) : (decimalDigits b).length = 3 := rfl

/-! ## The key operand (R240 of 44_keys_timers.md) -/

theorem State.keyOperand_some (s : State) (x : Reg) (h : (s.getV x).toNat < 16) :
    s.keyOperand x = some ⟨(s.getV x).toNat, h⟩ := by
  simp [State.keyOperand, h]

theorem State.keyOperand_none (s : State) (x : Reg) (h : 16 ≤ (s.getV x).toNat) : s.keyOperand x = none := by
  simp [State.keyOperand, Nat.not_lt.mpr h]

/-! ## Timers (R252 of 44_keys_timers.md) -/

theorem toNat_countDown (b : Byte) : (countDown b).toNat = b.toNat - 1 := by
  unfold countDown
  split
  · next h => simp [h]
  · next h =>
    have h0 : b.toNat ≠ 0 := fun h' => h (BitVec.eq_of_toNat_eq (by simpa using h'))
    have := b.isLt
    have h1 : (1 : Byte).toNat = 1 := rfl
    rw [BitVec.toNat_sub, h1]; omega

/-! ## Held states and the fetch (R91, R92 of 30_encoding.md) -/

theorem State.held_eq_false (s : State) : s.held = false ↔ s.fault = none ∧ s.wait = none := by
  simp [State.held]

theorem State.held_eq_true (s : State) : s.held = true ↔ s.fault ≠ none ∨ s.wait ≠ none := by
  simp [State.held, Option.isSome_iff_ne_none]

theorem State.fetch_eq_some (s : State) (h : s.pc.toNat + 1 ≤ 0xFFF) :
    s.fetch = some (s.mem.wordAt s.pc.toNat) := by
  simp only [State.fetch, h, if_true]

theorem State.fetch_eq_none (s : State) (h : 0xFFF < s.pc.toNat + 1) : s.fetch = none := by
  simp only [State.fetch, Nat.not_le.mpr h, if_false]

theorem State.fetch_some {s : State} {op : Word} (h : s.fetch = some op) :
    s.pc.toNat + 1 ≤ 0xFFF ∧ op = s.mem.wordAt s.pc.toNat := by
  unfold State.fetch at h
  split at h
  · next hp => exact ⟨hp, by simpa using h.symm⟩
  · simp at h

theorem State.fetch_none {s : State} (h : s.fetch = none) : 0xFFF < s.pc.toNat + 1 := by
  unfold State.fetch at h
  split at h
  · simp at h
  · next hp => omega

/-! ## Placing a word (log 12) -/

theorem placeWord_notHeld (s : State) (w : Word) : (s.placeWord w).held = false := rfl

/-- The next step fetches exactly the word placed. -/
theorem fetch_placeWord (s : State) (w : Word) (h : s.mem.wf = true) : (s.placeWord w).fetch = some w := by
  have key : ∀ p : Word, p.toNat + 1 ≤ 0xFFF →
      (Memory.writeBytes s.mem p.toNat (bytesOfWord w)).wordAt p.toNat = w := by
    intro p hp
    have hl : p.toNat + (bytesOfWord w).length ≤ 4096 := by simp [bytesOfWord]; omega
    simp only [Memory.wordAt]
    rw [Memory.read_writeBytes _ _ _ _ hl h, Memory.read_writeBytes _ _ _ _ hl h]
    simp [bytesOfWord, wordOfBytes_bytes]
  unfold State.placeWord State.fetch
  by_cases hp : s.pc.toNat + 1 ≤ 0xFFF
  · simp only [hp, if_true]; rw [key s.pc hp]
  · have h2 : (0x200 : Word).toNat + 1 ≤ 0xFFF := by decide
    simp only [hp, if_false]
    rw [if_pos h2, key 0x200 h2]

/-! ## Reset (R34, R300) -/

/-- Every creation state's memory is in canonical form. -/
theorem State.resetWith_mem_wf (p : Params) : (State.resetWith p).mem.wf = true :=
  Memory.wf_writeBytes _ _ 0 (by simp) rfl

end Sys2Proof.Machine
end

