-- ==== Sys2Proof/Laws/PerInstr.lean ====
section
/-! SUPPORT. Laws of instructions as syntax, one lemma for each constructor. -/

/-! ## InRange: every operand is in the range of its field (R95 of 30_encoding.md) -/

namespace Sys2Proof.Laws.InRange

/-- The instruction passes the well-formedness check. -/
def Statement (i : Instr) : Prop := i.wellFormed = true

theorem cls : Statement (.cls) := rfl
theorem ret : Statement (.ret) := rfl
theorem jp (nnn : Addr12) : Statement (.jp nnn) := by
  simp [Statement, Instr.wellFormed, Instr.kinds, Instr.operands, operandsOk, OperandKind.bound, nnn.isLt]
theorem call (nnn : Addr12) : Statement (.call nnn) := by
  simp [Statement, Instr.wellFormed, Instr.kinds, Instr.operands, operandsOk, OperandKind.bound, nnn.isLt]
theorem seVxNn (x : Reg) (nn : Byte) : Statement (.seVxNn x nn) := by
  simp [Statement, Instr.wellFormed, Instr.kinds, Instr.operands, operandsOk, OperandKind.bound, x.isLt, nn.isLt]
theorem sneVxNn (x : Reg) (nn : Byte) : Statement (.sneVxNn x nn) := by
  simp [Statement, Instr.wellFormed, Instr.kinds, Instr.operands, operandsOk, OperandKind.bound, x.isLt, nn.isLt]
theorem seVxVy (x : Reg) (y : Reg) : Statement (.seVxVy x y) := by
  simp [Statement, Instr.wellFormed, Instr.kinds, Instr.operands, operandsOk, OperandKind.bound, x.isLt, y.isLt]
theorem ldVxNn (x : Reg) (nn : Byte) : Statement (.ldVxNn x nn) := by
  simp [Statement, Instr.wellFormed, Instr.kinds, Instr.operands, operandsOk, OperandKind.bound, x.isLt, nn.isLt]
theorem addVxNn (x : Reg) (nn : Byte) : Statement (.addVxNn x nn) := by
  simp [Statement, Instr.wellFormed, Instr.kinds, Instr.operands, operandsOk, OperandKind.bound, x.isLt, nn.isLt]
theorem ldVxVy (x : Reg) (y : Reg) : Statement (.ldVxVy x y) := by
  simp [Statement, Instr.wellFormed, Instr.kinds, Instr.operands, operandsOk, OperandKind.bound, x.isLt, y.isLt]
theorem orVxVy (x : Reg) (y : Reg) : Statement (.orVxVy x y) := by
  simp [Statement, Instr.wellFormed, Instr.kinds, Instr.operands, operandsOk, OperandKind.bound, x.isLt, y.isLt]
theorem andVxVy (x : Reg) (y : Reg) : Statement (.andVxVy x y) := by
  simp [Statement, Instr.wellFormed, Instr.kinds, Instr.operands, operandsOk, OperandKind.bound, x.isLt, y.isLt]
theorem xorVxVy (x : Reg) (y : Reg) : Statement (.xorVxVy x y) := by
  simp [Statement, Instr.wellFormed, Instr.kinds, Instr.operands, operandsOk, OperandKind.bound, x.isLt, y.isLt]
theorem addVxVy (x : Reg) (y : Reg) : Statement (.addVxVy x y) := by
  simp [Statement, Instr.wellFormed, Instr.kinds, Instr.operands, operandsOk, OperandKind.bound, x.isLt, y.isLt]
theorem sub (x : Reg) (y : Reg) : Statement (.sub x y) := by
  simp [Statement, Instr.wellFormed, Instr.kinds, Instr.operands, operandsOk, OperandKind.bound, x.isLt, y.isLt]
theorem shr (x : Reg) (y : Reg) : Statement (.shr x y) := by
  simp [Statement, Instr.wellFormed, Instr.kinds, Instr.operands, operandsOk, OperandKind.bound, x.isLt, y.isLt]
theorem subn (x : Reg) (y : Reg) : Statement (.subn x y) := by
  simp [Statement, Instr.wellFormed, Instr.kinds, Instr.operands, operandsOk, OperandKind.bound, x.isLt, y.isLt]
theorem shl (x : Reg) (y : Reg) : Statement (.shl x y) := by
  simp [Statement, Instr.wellFormed, Instr.kinds, Instr.operands, operandsOk, OperandKind.bound, x.isLt, y.isLt]
theorem sneVxVy (x : Reg) (y : Reg) : Statement (.sneVxVy x y) := by
  simp [Statement, Instr.wellFormed, Instr.kinds, Instr.operands, operandsOk, OperandKind.bound, x.isLt, y.isLt]
theorem ldINnn (nnn : Addr12) : Statement (.ldINnn nnn) := by
  simp [Statement, Instr.wellFormed, Instr.kinds, Instr.operands, operandsOk, OperandKind.bound, nnn.isLt]
theorem jpV0 (nnn : Addr12) : Statement (.jpV0 nnn) := by
  simp [Statement, Instr.wellFormed, Instr.kinds, Instr.operands, operandsOk, OperandKind.bound, nnn.isLt]
theorem rnd (x : Reg) (nn : Byte) : Statement (.rnd x nn) := by
  simp [Statement, Instr.wellFormed, Instr.kinds, Instr.operands, operandsOk, OperandKind.bound, x.isLt, nn.isLt]
theorem drw (x : Reg) (y : Reg) (n : Fin 16) : Statement (.drw x y n) := by
  simp [Statement, Instr.wellFormed, Instr.kinds, Instr.operands, operandsOk, OperandKind.bound, x.isLt, y.isLt, n.isLt]
theorem skp (x : Reg) : Statement (.skp x) := by
  simp [Statement, Instr.wellFormed, Instr.kinds, Instr.operands, operandsOk, OperandKind.bound, x.isLt]
theorem sknp (x : Reg) : Statement (.sknp x) := by
  simp [Statement, Instr.wellFormed, Instr.kinds, Instr.operands, operandsOk, OperandKind.bound, x.isLt]
theorem ldVxDt (x : Reg) : Statement (.ldVxDt x) := by
  simp [Statement, Instr.wellFormed, Instr.kinds, Instr.operands, operandsOk, OperandKind.bound, x.isLt]
theorem ldVxK (x : Reg) : Statement (.ldVxK x) := by
  simp [Statement, Instr.wellFormed, Instr.kinds, Instr.operands, operandsOk, OperandKind.bound, x.isLt]
theorem ldDtVx (x : Reg) : Statement (.ldDtVx x) := by
  simp [Statement, Instr.wellFormed, Instr.kinds, Instr.operands, operandsOk, OperandKind.bound, x.isLt]
theorem ldStVx (x : Reg) : Statement (.ldStVx x) := by
  simp [Statement, Instr.wellFormed, Instr.kinds, Instr.operands, operandsOk, OperandKind.bound, x.isLt]
theorem addIVx (x : Reg) : Statement (.addIVx x) := by
  simp [Statement, Instr.wellFormed, Instr.kinds, Instr.operands, operandsOk, OperandKind.bound, x.isLt]
theorem ldFVx (x : Reg) : Statement (.ldFVx x) := by
  simp [Statement, Instr.wellFormed, Instr.kinds, Instr.operands, operandsOk, OperandKind.bound, x.isLt]
theorem ldBVx (x : Reg) : Statement (.ldBVx x) := by
  simp [Statement, Instr.wellFormed, Instr.kinds, Instr.operands, operandsOk, OperandKind.bound, x.isLt]
theorem ldMemVx (x : Reg) : Statement (.ldMemVx x) := by
  simp [Statement, Instr.wellFormed, Instr.kinds, Instr.operands, operandsOk, OperandKind.bound, x.isLt]
theorem ldVxMem (x : Reg) : Statement (.ldVxMem x) := by
  simp [Statement, Instr.wellFormed, Instr.kinds, Instr.operands, operandsOk, OperandKind.bound, x.isLt]

end Sys2Proof.Laws.InRange

/-! ## MatchesRow: the encoded word belongs to the instruction's row of R96 -/

namespace Sys2Proof.Laws.MatchesRow

/-- A word of format A belongs to the row of its family. -/
theorem covers_encA (f : BitVec 4) (nnn : Addr12) (v : Word) (hv : v.toNat = f.toNat * 4096) :
    OpRow.covers ⟨0xF000, v⟩ (encA f nnn) = true := by
  have := nnn.isLt
  rw [OpRow.covers, beq_iff_eq]
  apply BitVec.eq_of_toNat_eq
  show (encA f nnn &&& 0xF000#16).toNat = v.toNat
  rw [toNat_and_F000, toNat_encA]; omega

/-- A word of format XNN belongs to the row of its family. -/
theorem covers_encXnn (f : BitVec 4) (x : Reg) (nn : Byte) (v : Word) (hv : v.toNat = f.toNat * 4096) :
    OpRow.covers ⟨0xF000, v⟩ (encXnn f x nn) = true := by
  have := nn.isLt
  rw [OpRow.covers, beq_iff_eq]
  apply BitVec.eq_of_toNat_eq
  show (encXnn f x nn &&& 0xF000#16).toNat = v.toNat
  rw [toNat_and_F000, toNat_encXnn]; omega

/-- A word of format X belongs to the row of its family and sub-byte. -/
theorem covers_encX (f : BitVec 4) (x : Reg) (nn : Byte) (v : Word)
    (hv : v.toNat = f.toNat * 4096 + nn.toNat) : OpRow.covers ⟨0xF0FF, v⟩ (encXnn f x nn) = true := by
  have := nn.isLt
  rw [OpRow.covers, beq_iff_eq]
  apply BitVec.eq_of_toNat_eq
  show (encXnn f x nn &&& 0xF0FF#16).toNat = v.toNat
  rw [toNat_and_F0FF, toNat_encXnn]; omega

/-- A word of format XY belongs to the row of its family and sub-code. -/
theorem covers_encXy (f : BitVec 4) (x y n : Fin 16) (v : Word)
    (hv : v.toNat = f.toNat * 4096 + n.val) : OpRow.covers ⟨0xF00F, v⟩ (encXyn f x y n) = true := by
  rw [OpRow.covers, beq_iff_eq]
  apply BitVec.eq_of_toNat_eq
  show (encXyn f x y n &&& 0xF00F#16).toNat = v.toNat
  rw [toNat_and_F00F, toNat_encXyn]; omega

/-- A word of format XYN belongs to the row of its family. -/
theorem covers_encXyn (f : BitVec 4) (x y n : Fin 16) (v : Word) (hv : v.toNat = f.toNat * 4096) :
    OpRow.covers ⟨0xF000, v⟩ (encXyn f x y n) = true := by
  rw [OpRow.covers, beq_iff_eq]
  apply BitVec.eq_of_toNat_eq
  show (encXyn f x y n &&& 0xF000#16).toNat = v.toNat
  rw [toNat_and_F000, toNat_encXyn]; omega

/-- The word of the instruction satisfies its row's mask and value, and the row is in the table. -/
def Statement (i : Instr) : Prop := i.row.covers (encode i) = true ∧ i.row ∈ opcodeTable

theorem cls : Statement (.cls) := ⟨by decide, by decide⟩
theorem ret : Statement (.ret) := ⟨by decide, by decide⟩
theorem jp (nnn : Addr12) : Statement (.jp nnn) := ⟨covers_encA _ _ _ rfl, by simp [Instr.row, opcodeTable]⟩
theorem call (nnn : Addr12) : Statement (.call nnn) := ⟨covers_encA _ _ _ rfl, by simp [Instr.row, opcodeTable]⟩
theorem seVxNn (x : Reg) (nn : Byte) : Statement (.seVxNn x nn) := ⟨covers_encXnn _ _ _ _ rfl, by simp [Instr.row, opcodeTable]⟩
theorem sneVxNn (x : Reg) (nn : Byte) : Statement (.sneVxNn x nn) := ⟨covers_encXnn _ _ _ _ rfl, by simp [Instr.row, opcodeTable]⟩
theorem seVxVy (x : Reg) (y : Reg) : Statement (.seVxVy x y) := ⟨covers_encXy _ _ _ _ _ rfl, by simp [Instr.row, opcodeTable]⟩
theorem ldVxNn (x : Reg) (nn : Byte) : Statement (.ldVxNn x nn) := ⟨covers_encXnn _ _ _ _ rfl, by simp [Instr.row, opcodeTable]⟩
theorem addVxNn (x : Reg) (nn : Byte) : Statement (.addVxNn x nn) := ⟨covers_encXnn _ _ _ _ rfl, by simp [Instr.row, opcodeTable]⟩
theorem ldVxVy (x : Reg) (y : Reg) : Statement (.ldVxVy x y) := ⟨covers_encXy _ _ _ _ _ rfl, by simp [Instr.row, opcodeTable]⟩
theorem orVxVy (x : Reg) (y : Reg) : Statement (.orVxVy x y) := ⟨covers_encXy _ _ _ _ _ rfl, by simp [Instr.row, opcodeTable]⟩
theorem andVxVy (x : Reg) (y : Reg) : Statement (.andVxVy x y) := ⟨covers_encXy _ _ _ _ _ rfl, by simp [Instr.row, opcodeTable]⟩
theorem xorVxVy (x : Reg) (y : Reg) : Statement (.xorVxVy x y) := ⟨covers_encXy _ _ _ _ _ rfl, by simp [Instr.row, opcodeTable]⟩
theorem addVxVy (x : Reg) (y : Reg) : Statement (.addVxVy x y) := ⟨covers_encXy _ _ _ _ _ rfl, by simp [Instr.row, opcodeTable]⟩
theorem sub (x : Reg) (y : Reg) : Statement (.sub x y) := ⟨covers_encXy _ _ _ _ _ rfl, by simp [Instr.row, opcodeTable]⟩
theorem shr (x : Reg) (y : Reg) : Statement (.shr x y) := ⟨covers_encXy _ _ _ _ _ rfl, by simp [Instr.row, opcodeTable]⟩
theorem subn (x : Reg) (y : Reg) : Statement (.subn x y) := ⟨covers_encXy _ _ _ _ _ rfl, by simp [Instr.row, opcodeTable]⟩
theorem shl (x : Reg) (y : Reg) : Statement (.shl x y) := ⟨covers_encXy _ _ _ _ _ rfl, by simp [Instr.row, opcodeTable]⟩
theorem sneVxVy (x : Reg) (y : Reg) : Statement (.sneVxVy x y) := ⟨covers_encXy _ _ _ _ _ rfl, by simp [Instr.row, opcodeTable]⟩
theorem ldINnn (nnn : Addr12) : Statement (.ldINnn nnn) := ⟨covers_encA _ _ _ rfl, by simp [Instr.row, opcodeTable]⟩
theorem jpV0 (nnn : Addr12) : Statement (.jpV0 nnn) := ⟨covers_encA _ _ _ rfl, by simp [Instr.row, opcodeTable]⟩
theorem rnd (x : Reg) (nn : Byte) : Statement (.rnd x nn) := ⟨covers_encXnn _ _ _ _ rfl, by simp [Instr.row, opcodeTable]⟩
theorem drw (x : Reg) (y : Reg) (n : Fin 16) : Statement (.drw x y n) := ⟨covers_encXyn _ _ _ _ _ rfl, by simp [Instr.row, opcodeTable]⟩
theorem skp (x : Reg) : Statement (.skp x) := ⟨covers_encX _ _ _ _ rfl, by simp [Instr.row, opcodeTable]⟩
theorem sknp (x : Reg) : Statement (.sknp x) := ⟨covers_encX _ _ _ _ rfl, by simp [Instr.row, opcodeTable]⟩
theorem ldVxDt (x : Reg) : Statement (.ldVxDt x) := ⟨covers_encX _ _ _ _ rfl, by simp [Instr.row, opcodeTable]⟩
theorem ldVxK (x : Reg) : Statement (.ldVxK x) := ⟨covers_encX _ _ _ _ rfl, by simp [Instr.row, opcodeTable]⟩
theorem ldDtVx (x : Reg) : Statement (.ldDtVx x) := ⟨covers_encX _ _ _ _ rfl, by simp [Instr.row, opcodeTable]⟩
theorem ldStVx (x : Reg) : Statement (.ldStVx x) := ⟨covers_encX _ _ _ _ rfl, by simp [Instr.row, opcodeTable]⟩
theorem addIVx (x : Reg) : Statement (.addIVx x) := ⟨covers_encX _ _ _ _ rfl, by simp [Instr.row, opcodeTable]⟩
theorem ldFVx (x : Reg) : Statement (.ldFVx x) := ⟨covers_encX _ _ _ _ rfl, by simp [Instr.row, opcodeTable]⟩
theorem ldBVx (x : Reg) : Statement (.ldBVx x) := ⟨covers_encX _ _ _ _ rfl, by simp [Instr.row, opcodeTable]⟩
theorem ldMemVx (x : Reg) : Statement (.ldMemVx x) := ⟨covers_encX _ _ _ _ rfl, by simp [Instr.row, opcodeTable]⟩
theorem ldVxMem (x : Reg) : Statement (.ldVxMem x) := ⟨covers_encX _ _ _ _ rfl, by simp [Instr.row, opcodeTable]⟩

end Sys2Proof.Laws.MatchesRow
end

