-- ==== Sys2Proof/Laws/Step.lean ====
section
/-! SUPPORT. What one step can do, said once (R90 of 30_encoding.md). -/

namespace Sys2Proof.Machine

/-- The four ways a step answers a next state: held (R91), no fetch (R92), an unsupported word (R99), or an instruction. -/
theorem step_cases {s t : State} (h : step s = .next t) :
    (s.held = true ∧ t = s) ∨
    (s.held = false ∧ s.fetch = none ∧ t = s.raise .fetchRange s.pc) ∨
    (∃ op, s.held = false ∧ s.fetch = some op ∧ decode op = .unsupported op ∧
      t = (s.skipUnsupported op).endStep) ∨
    (∃ op i u, s.held = false ∧ s.fetch = some op ∧ decode op = .instr i ∧ exec i s = .next u ∧
      t = u.endStep) := by
  unfold step at h
  split at h
  · next hh => exact .inl ⟨hh, by simpa using h.symm⟩
  · next hh =>
    have hh' : s.held = false := by simpa using hh
    split at h
    · next hf => exact .inr (.inl ⟨hh', hf, by simpa using h.symm⟩)
    · next op hf =>
      split at h
      · next w hd =>
        have hw := decode_unsupported hd
        subst hw
        exact .inr (.inr (.inl ⟨w, hh', hf, hd, by simpa using h.symm⟩))
      · next i hd =>
        split at h
        · next u he => exact .inr (.inr (.inr ⟨op, i, u, hh', hf, hd, he, by simpa using h.symm⟩))
        · simp at h
        · simp at h

theorem step_held {s : State} (h : s.held = true) : step s = .next s := by
  simp [step, h]

theorem step_noFetch {s : State} (h : s.held = false) (hf : s.fetch = none) :
    step s = .next (s.raise .fetchRange s.pc) := by
  simp [step, h, hf]

theorem step_unsupported {s : State} {op w : Word} (h : s.held = false) (hf : s.fetch = some op)
    (hd : decode op = .unsupported w) : step s = .next (s.skipUnsupported w).endStep := by
  simp [step, h, hf, hd]

theorem step_instr {s u : State} {op : Word} {i : Instr} (h : s.held = false) (hf : s.fetch = some op)
    (hd : decode op = .instr i) (he : exec i s = .next u) : step s = .next u.endStep := by
  simp [step, h, hf, hd, he]

/-- The step after `withFetchWord` runs the word placed. -/
theorem step_withFetchWord (s u : State) (nbits w : Nat) (i : Instr) (h : s.mem.wf = true)
    (hd : decode (tableWord nbits w) = .instr i) (he : exec i (s.withFetchWord nbits w) = .next u) :
    step (s.withFetchWord nbits w) = .next u.endStep :=
  step_instr (placeWord_notHeld s _) (fetch_placeWord s _ h) hd he

end Sys2Proof.Machine
end

