-- ==== Sys2Proof/Machine/Asm.lean ====
section
/-! DEFINITION. The assembler spelling of each instruction (R102 of 30_encoding.md). It is spelling only, with no
behaviour (G3, log 31); how numbers are written is log 34. -/

namespace Sys2Proof.Machine

/-- One hexadecimal digit. -/
def hexDigit (n : Nat) : String :=
  match n with
  | 0 => "0" | 1 => "1" | 2 => "2" | 3 => "3" | 4 => "4" | 5 => "5" | 6 => "6" | 7 => "7"
  | 8 => "8" | 9 => "9" | 10 => "A" | 11 => "B" | 12 => "C" | 13 => "D" | 14 => "E" | _ => "F"

/-- The low `k` hexadecimal digits of a number, the most significant first. -/
def hexDigits : Nat → Nat → String
  | 0, _ => ""
  | k + 1, n => hexDigits k (n / 16) ++ hexDigit (n % 16)

/-- A register: `V0`-`VF`. -/
def asmReg (x : Reg) : String := "V" ++ hexDigit x.val

/-- An immediate or address in hexadecimal, with `k` digits. -/
def asmNum (k n : Nat) : String := "0x" ++ hexDigits k n

/-- A row count `n` of DRW, in decimal: `0` to `15`. DESIGN CHOICE, log 34: R102 does not say whether n is an immediate, and
the one listing with a DRW (P4 of 95_test_vectors.md) writes `DRW V1, V2, 5`. -/
def asmCount (n : Fin 16) : String :=
  if n.val < 10 then hexDigit n.val else "1" ++ hexDigit (n.val - 10)

/-- The spelling of an instruction (R102). DRW's row count is the model's choice, log 34. -/
def asm : Instr → String
  | .cls => "CLS"
  | .ret => "RET"
  | .jp nnn => "JP " ++ asmNum 3 nnn.toNat
  | .call nnn => "CALL " ++ asmNum 3 nnn.toNat
  | .seVxNn x nn => "SE " ++ asmReg x ++ ", " ++ asmNum 2 nn.toNat
  | .sneVxNn x nn => "SNE " ++ asmReg x ++ ", " ++ asmNum 2 nn.toNat
  | .seVxVy x y => "SE " ++ asmReg x ++ ", " ++ asmReg y
  | .ldVxNn x nn => "LD " ++ asmReg x ++ ", " ++ asmNum 2 nn.toNat
  | .addVxNn x nn => "ADD " ++ asmReg x ++ ", " ++ asmNum 2 nn.toNat
  | .ldVxVy x y => "LD " ++ asmReg x ++ ", " ++ asmReg y
  | .orVxVy x y => "OR " ++ asmReg x ++ ", " ++ asmReg y
  | .andVxVy x y => "AND " ++ asmReg x ++ ", " ++ asmReg y
  | .xorVxVy x y => "XOR " ++ asmReg x ++ ", " ++ asmReg y
  | .addVxVy x y => "ADD " ++ asmReg x ++ ", " ++ asmReg y
  | .sub x y => "SUB " ++ asmReg x ++ ", " ++ asmReg y
  | .shr x y => "SHR " ++ asmReg x ++ ", " ++ asmReg y
  | .subn x y => "SUBN " ++ asmReg x ++ ", " ++ asmReg y
  | .shl x y => "SHL " ++ asmReg x ++ ", " ++ asmReg y
  | .sneVxVy x y => "SNE " ++ asmReg x ++ ", " ++ asmReg y
  | .ldINnn nnn => "LD I, " ++ asmNum 3 nnn.toNat
  | .jpV0 nnn => "JP V0, " ++ asmNum 3 nnn.toNat
  | .rnd x nn => "RND " ++ asmReg x ++ ", " ++ asmNum 2 nn.toNat
  | .drw x y n => "DRW " ++ asmReg x ++ ", " ++ asmReg y ++ ", " ++ asmCount n
  | .skp x => "SKP " ++ asmReg x
  | .sknp x => "SKNP " ++ asmReg x
  | .ldVxDt x => "LD " ++ asmReg x ++ ", DT"
  | .ldVxK x => "LD " ++ asmReg x ++ ", K"
  | .ldDtVx x => "LD DT, " ++ asmReg x
  | .ldStVx x => "LD ST, " ++ asmReg x
  | .addIVx x => "ADD I, " ++ asmReg x
  | .ldFVx x => "LD F, " ++ asmReg x
  | .ldBVx x => "LD B, " ++ asmReg x
  | .ldMemVx x => "LD [I], " ++ asmReg x
  | .ldVxMem x => "LD " ++ asmReg x ++ ", [I]"

/-- The spelling of any word: an instruction, or a raw data word `DW` (R102). -/
def asmWord (op : Word) : String :=
  match decode op with
  | .instr i => asm i
  | .unsupported w => "DW " ++ asmNum 4 w.toNat

end Sys2Proof.Machine
end

