-- ==== Sys2Proof/Tests/Slice0.lean ====
section
/-! SUPPORT. The model's own tests. Expected results are the spec's: the words of R96 and R102 (30_encoding.md) and the
vectors W<n> and T<n> of 95_test_vectors.md, named where they are used. The theorems `witness_<obligation>` at the end show states and operands
that meet the hypotheses of each statement, one conjunct for each clause, at the ends of its range. -/

namespace Sys2Proof.Tests

open Sys2Proof.Machine

/-! ## Well-formedness: an ill-formed term for each check -/

theorem test_wf_register_out_of_range : operandsOk [.reg, .byte] [16, 0] = false := by decide
theorem test_wf_nibble_out_of_range : operandsOk [.reg, .reg, .nibble] [0, 0, 16] = false := by decide
theorem test_wf_byte_out_of_range : operandsOk [.reg, .byte] [0, 256] = false := by decide
theorem test_wf_address_out_of_range : operandsOk [.addr] [0x1000] = false := by decide
theorem test_wf_operand_missing : operandsOk (Instr.kinds (.jp 0)) [] = false := by decide
theorem test_wf_operand_too_many : operandsOk (Instr.kinds .cls) [0] = false := by decide
theorem test_wf_greatest_operands : (Instr.drw 0xF 0xF 0xF).wellFormed = true := by decide
/-- W4: 3585 bytes are rejected, 3584 accepted. -/
theorem test_wf_program_too_long : programOk (List.replicate 3585 0) = false := by
  rw [programOk, List.length_replicate]; decide
theorem test_wf_program_longest : programOk (List.replicate 3584 0) = true := by
  rw [programOk, List.length_replicate]; decide

/-! ## Decode: one word for each constructor, written out from R96 -/

theorem test_decode_cls : decode 0x00E0 = .instr (.cls) := by decide
theorem test_decode_ret : decode 0x00EE = .instr (.ret) := by decide
theorem test_decode_jp : decode 0x1234 = .instr (.jp 0x234) := by decide
theorem test_decode_call : decode 0x2210 = .instr (.call 0x210) := by decide
theorem test_decode_seVxNn : decode 0x3342 = .instr (.seVxNn 3 0x42) := by decide
theorem test_decode_sneVxNn : decode 0x4A41 = .instr (.sneVxNn 0xA 0x41) := by decide
theorem test_decode_seVxVy : decode 0x5120 = .instr (.seVxVy 1 2) := by decide
theorem test_decode_ldVxNn : decode 0x6A3C = .instr (.ldVxNn 0xA 0x3C) := by decide
theorem test_decode_addVxNn : decode 0x7003 = .instr (.addVxNn 0 3) := by decide
theorem test_decode_ldVxVy : decode 0x8120 = .instr (.ldVxVy 1 2) := by decide
theorem test_decode_orVxVy : decode 0x8121 = .instr (.orVxVy 1 2) := by decide
theorem test_decode_andVxVy : decode 0x8122 = .instr (.andVxVy 1 2) := by decide
theorem test_decode_xorVxVy : decode 0x8123 = .instr (.xorVxVy 1 2) := by decide
theorem test_decode_addVxVy : decode 0x8F14 = .instr (.addVxVy 0xF 1) := by decide
theorem test_decode_sub : decode 0x8235 = .instr (.sub 2 3) := by decide
theorem test_decode_shr : decode 0x8126 = .instr (.shr 1 2) := by decide
theorem test_decode_subn : decode 0x8237 = .instr (.subn 2 3) := by decide
theorem test_decode_shl : decode 0x812E = .instr (.shl 1 2) := by decide
theorem test_decode_sneVxVy : decode 0x9120 = .instr (.sneVxVy 1 2) := by decide
theorem test_decode_ldINnn : decode 0xA456 = .instr (.ldINnn 0x456) := by decide
theorem test_decode_jpV0 : decode 0xBFFF = .instr (.jpV0 0xFFF) := by decide
theorem test_decode_rnd : decode 0xC30F = .instr (.rnd 3 0x0F) := by decide
theorem test_decode_drw : decode 0xD125 = .instr (.drw 1 2 5) := by decide
theorem test_decode_skp : decode 0xE59E = .instr (.skp 5) := by decide
theorem test_decode_sknp : decode 0xE5A1 = .instr (.sknp 5) := by decide
theorem test_decode_ldVxDt : decode 0xF307 = .instr (.ldVxDt 3) := by decide
theorem test_decode_ldVxK : decode 0xF30A = .instr (.ldVxK 3) := by decide
theorem test_decode_ldDtVx : decode 0xFA15 = .instr (.ldDtVx 0xA) := by decide
theorem test_decode_ldStVx : decode 0xF118 = .instr (.ldStVx 1) := by decide
theorem test_decode_addIVx : decode 0xF21E = .instr (.addIVx 2) := by decide
theorem test_decode_ldFVx : decode 0xF029 = .instr (.ldFVx 0) := by decide
theorem test_decode_ldBVx : decode 0xF033 = .instr (.ldBVx 0) := by decide
theorem test_decode_ldMemVx : decode 0xF355 = .instr (.ldMemVx 3) := by decide
theorem test_decode_ldVxMem : decode 0xF265 = .instr (.ldVxMem 2) := by decide

/-! Words that no row of R96 covers (T2-T9). -/

theorem test_decode_sys : decode 0x0123 = .unsupported 0x0123 := by decide
theorem test_decode_01E0 : decode 0x01E0 = .unsupported 0x01E0 := by decide
theorem test_decode_5121 : decode 0x5121 = .unsupported 0x5121 := by decide
theorem test_decode_9121 : decode 0x9121 = .unsupported 0x9121 := by decide
theorem test_decode_8128 : decode 0x8128 = .unsupported 0x8128 := by decide
theorem test_decode_800F : decode 0x800F = .unsupported 0x800F := by decide
theorem test_decode_E09F : decode 0xE09F = .unsupported 0xE09F := by decide
theorem test_decode_F0FF : decode 0xF0FF = .unsupported 0xF0FF := by decide

/-- T1: the high byte is at the lower address. -/
theorem test_decode_bytes : decodeBytes [0x60, 0x2A, 0x99] = some (.instr (.ldVxNn 0 0x2A), [0x99]) := by
  decide
theorem test_decode_bytes_short : decodeBytes [0x60] = none := by decide
theorem test_table_word : decodeTableWord 16 0xD125 = some (.drw 1 2 5) := by decide

/-- Every row of R96 is some instruction's, and the table lists 34. -/
theorem test_table_length : opcodeTable.length = 34 := by decide

/-- R102, with the row count as P4 writes it. -/
theorem test_asm_drw : asmWord 0xD125 = "DRW V1, V2, 5" := by decide
theorem test_asm_data : asmWord 0x0123 = "DW 0x0123" := by decide


/-! ## One step on a small state -/

/-- The state after one step that runs the word `w` at PC. -/
def run1 (w : Nat) (s : State) : Host.Outcome State Fault Refusal := step (s.withFetchWord 16 w)

/-- The step answers a next state that passes `p`. -/
def nextIs (o : Host.Outcome State Fault Refusal) (p : State → Bool) : Bool :=
  match o with
  | .next t => p t
  | .fault _ => false
  | .refused _ => false

/-- The reset state with other parameters. -/
def withCfg (f : Params → Params) (s : State) : State := { s with cfg := f s.cfg }

/-- The reset state with SP and one stack entry given. -/
def withStack (sp : Fin 17) (j : Fin 16) (w : Word) (s : State) : State :=
  { s with sp := sp, stack := s.stack.set j w }

/-- The reset state. -/
def r0 : State := State.reset

/-- A fault record to compare with F. -/
def isFault (t : State) (c : FaultCause) (pc info : Word) : Bool := t.fault == some ⟨c, pc, info⟩

/-! Fetch, decode and the held states. -/

/-- T2 -/
theorem test_step_unsupported : nextIs (run1 0x0123 (r0.setPc 0x300)) (fun t =>
    t.pc == 0x302 && t.reports == [.unsupportedOpcode 0x300 0x0123] && t.v == r0.v) = true := by decide
/-- T17 -/
theorem test_step_unsupported_ticks :
    nextIs (run1 0x0123 (withCfg (fun p => { p with timerMode := .perStep }) (r0.setDt 5)))
      (fun t => t.dt == 4 && t.pc == 0x202) = true := by decide
/-- T10 -/
theorem test_step_fetch_at_ffe : nextIs (run1 0x1200 (r0.setPc 0xFFE)) (fun t => t.pc == 0x200) = true := by decide
/-- T11 -/
theorem test_step_fetch_range : nextIs (step (r0.setPc 0xFFF)) (fun t =>
    isFault t .fetchRange 0xFFF 0xFFF && t.pc == 0xFFF) = true := by decide
/-- T13 -/
theorem test_step_odd_pc : nextIs (run1 0x6107 (r0.setPc 0x201)) (fun t => t.getV 1 == 7 && t.pc == 0x203) = true := by
  decide
/-- T14 -/
theorem test_step_low_pc : nextIs (run1 0x6133 (r0.setPc 0x050)) (fun t => t.getV 1 == 0x33 && t.pc == 0x052) = true := by
  decide
/-- T15 -/
theorem test_step_faulted : nextIs (step (r0.raise .memRange 0x1000)) (· == r0.raise .memRange 0x1000) = true := by decide
/-- T16 -/
theorem test_step_waiting : nextIs (step (r0.setWait (some 3))) (· == r0.setWait (some 3)) = true := by decide

/-! Display. -/

/-- T20 -/
theorem test_cls : nextIs (run1 0x00E0 ((r0.showScreen ((Screen.clear.flip 0 0).flip 63 31)).clearRp)) (fun t =>
    t.display == Screen.clear && t.rp && t.pc == 0x202) = true := by decide
/-- T22: glyph "0" at (0, 0). -/
theorem test_drw_glyph : nextIs (run1 0xD125 r0) (fun t =>
    (t.display.toList.take 6) == [0xF, 0x9, 0x9, 0x9, 0xF, 0x0] && t.getV 0xF == 0 && t.rp) = true := by decide
/-- T25 and T26: wrap and clip at the corner. -/
theorem test_drw_wrap : nextIs (run1 0xD015 ((r0.setV 0 60).setV 1 30)) (fun t =>
    t.display.toList.take 3 == [0x9000000000000000, 0x9000000000000000, 0xF000000000000000] &&
    t.display[30] == 0xF000000000000000 && t.display[31] == 0x9000000000000000) = true := by decide
theorem test_drw_clip :
    nextIs (run1 0xD015 (withCfg (fun p => { p with spriteEdge := .clip }) ((r0.setV 0 60).setV 1 30)))
      (fun t => t.display.toList.take 3 == [0, 0, 0] &&
        t.display[30] == 0xF000000000000000 && t.display[31] == 0x9000000000000000 && t.getV 0xF == 0) = true := by
  decide
/-- T30 -/
theorem test_drw_fault : nextIs (run1 0xD015 ((r0.setI 0xFFC).setPc 0x240)) (fun t =>
    isFault t .memRange 0x240 0x1000 && !t.rp && t.pc == 0x240) = true := by decide
/-- T34: VF is the coordinate, then the flag. -/
theorem test_drw_vf : nextIs (run1 0xDF11 (((((r0.setMem [(0x300, 0x80)]).setI 0x300).setV 0xF 5).setV 1 2).showScreen
    (Screen.clear.flip 5 2))) (fun t => t.display == Screen.clear && t.getV 0xF == 1) = true := by decide

/-! Control transfer. -/

/-- T40 -/
theorem test_ret : nextIs (run1 0x00EE (withStack 1 0 0x204 (r0.setPc 0x210))) (fun t =>
    t.sp == 0 && t.pc == 0x206 && t.stackAt 0 == 0x204) = true := by decide
/-- T41 -/
theorem test_ret_underflow : nextIs (run1 0x00EE (r0.setPc 0x210)) (fun t =>
    t.sp == 0 && t.pc == 0x212 && t.reports == [.stackUnderflow 0x210]) = true := by decide
/-- T43 -/
theorem test_jp : nextIs (run1 0x1234 r0) (fun t => t.pc == 0x234) = true := by decide
/-- T48 -/
theorem test_call_sixteenth : nextIs (run1 0x2300 (withStack 15 0 0 r0)) (fun t =>
    t.sp == 16 && t.pc == 0x300 && t.stackAt 15 == 0x200) = true := by decide
/-- T47 -/
theorem test_call_overflow_fault :
    nextIs (run1 0x2210 (withCfg (fun p => { p with stackPolicy := .fault }) (withStack 16 0 0 (r0.setPc 0x204))))
      (fun t => isFault t .stackOverflow 0x204 0 && t.pc == 0x204 && t.sp == 16) = true := by decide
/-- T49 -/
theorem test_se_vx_nn : nextIs (run1 0x3342 (r0.setV 3 0x42)) (fun t => t.pc == 0x204) = true := by decide
/-- T51 -/
theorem test_sne_vx_nn : nextIs (run1 0x4342 (r0.setV 3 0x42)) (fun t => t.pc == 0x202) = true := by decide
/-- T54 -/
theorem test_se_vx_vy : nextIs (run1 0x5120 ((r0.setV 1 7).setV 2 8)) (fun t => t.pc == 0x202) = true := by decide
/-- T55 -/
theorem test_sne_vx_vy : nextIs (run1 0x9120 ((r0.setV 1 7).setV 2 8)) (fun t => t.pc == 0x204) = true := by decide
/-- T60 -/
theorem test_jp_v0 : nextIs (run1 0xBFFF (r0.setV 0 0xFF)) (fun t => t.pc == 0x10FE) = true := by decide

/-! Arithmetic and logic. -/

/-- T70 -/
theorem test_ld_vx_nn : nextIs (run1 0x6512 (r0.setV 5 0x99)) (fun t => t.getV 5 == 0x12) = true := by decide
/-- T71 -/
theorem test_add_vx_nn : nextIs (run1 0x7501 ((r0.setV 5 0xFF).setV 0xF 0x55)) (fun t =>
    t.getV 5 == 0 && t.getV 0xF == 0x55) = true := by decide
/-- T73 -/
theorem test_ld_vx_vy : nextIs (run1 0x8120 (r0.setV 2 0xAB)) (fun t => t.getV 1 == 0xAB && t.getV 2 == 0xAB) = true := by
  decide
/-- T74 -/
theorem test_or : nextIs (run1 0x8121 (((r0.setV 1 0xF0).setV 2 0x0F).setV 0xF 0x33)) (fun t =>
    t.getV 1 == 0xFF && t.getV 0xF == 0x33) = true := by decide
/-- T75 -/
theorem test_and : nextIs (run1 0x8122 ((r0.setV 1 0xF0).setV 2 0x3C)) (fun t => t.getV 1 == 0x30) = true := by decide
/-- T76 -/
theorem test_xor : nextIs (run1 0x8123 ((r0.setV 1 0xF0).setV 2 0x3C)) (fun t => t.getV 1 == 0xCC) = true := by decide
/-- T79 and T81: VF as the destination and as the operand. -/
theorem test_add_vf_destination : nextIs (run1 0x8F14 ((r0.setV 0xF 0xFF).setV 1 1)) (fun t => t.getV 0xF == 1) = true := by
  decide
theorem test_add_vf_operand : nextIs (run1 0x81F4 ((r0.setV 1 0x10).setV 0xF 0x20)) (fun t =>
    t.getV 1 == 0x30 && t.getV 0xF == 0) = true := by decide
/-- T83 and W2's equal case. -/
theorem test_sub_borrow : nextIs (run1 0x8125 ((r0.setV 1 3).setV 2 5)) (fun t =>
    t.getV 1 == 0xFE && t.getV 0xF == 0) = true := by decide
theorem test_sub_equal : nextIs (run1 0x8125 ((r0.setV 1 5).setV 2 5)) (fun t =>
    t.getV 1 == 0 && t.getV 0xF == 1) = true := by decide
/-- T86 and T87 -/
theorem test_shr_vx : nextIs (run1 0x8126 ((r0.setV 1 0xFF).setV 2 2)) (fun t =>
    t.getV 1 == 0x7F && t.getV 0xF == 1) = true := by decide
theorem test_shr_vy :
    nextIs (run1 0x8126 (withCfg (fun p => { p with shiftSource := .vy }) ((r0.setV 1 0xFF).setV 2 2)))
      (fun t => t.getV 1 == 1 && t.getV 0xF == 0) = true := by decide
/-- T89 -/
theorem test_subn : nextIs (run1 0x8127 ((r0.setV 1 5).setV 2 3)) (fun t =>
    t.getV 1 == 0xFE && t.getV 0xF == 0) = true := by decide
/-- T95 and T93 -/
theorem test_shl_vf : nextIs (run1 0x8FFE (r0.setV 0xF 0xF0)) (fun t => t.getV 0xF == 1) = true := by decide
theorem test_shl : nextIs (run1 0x810E (r0.setV 1 0x41)) (fun t => t.getV 1 == 0x82 && t.getV 0xF == 0) = true := by
  decide
/-- T96 and T98: a given draw, and the mask 0x00 under any draw. -/
theorem test_rnd_draw : (rndWith 0xAB 3 0x0F (r0.setV 3 0x99)).getV 3 = 0x0B := by decide
theorem test_rnd_zero_mask (r : Byte) : (rndWith r 3 0 r0).getV 3 = 0 := by simp [rndWith, State.next, State.setPc, State.setV, State.getV]

/-! Index register and memory. -/

/-- T100 -/
theorem test_ld_i : nextIs (run1 0xA456 (r0.setI 0x123)) (fun t => t.i == 0x456) = true := by decide
/-- T104 and T106 -/
theorem test_add_i_wraps : nextIs (run1 0xF21E ((r0.setI 0xFFFF).setV 2 1)) (fun t =>
    t.i == 0 && t.getV 0xF == 1) = true := by decide
theorem test_add_i_vf : nextIs (run1 0xFF1E ((r0.setI 0x300).setV 0xF 0x10)) (fun t =>
    t.i == 0x310 && t.getV 0xF == 0) = true := by decide
/-- T107 and T110 -/
theorem test_ld_f_glyph : nextIs (run1 0xF029 (r0.setV 0 0x0A)) (fun t =>
    t.i == 0x032 && t.mem.readBytes 0x032 5 == [0xF0, 0x90, 0xF0, 0x90, 0x90]) = true := by decide
theorem test_ld_f_no_mask : nextIs (run1 0xF029 (r0.setV 0 0xFF)) (fun t => t.i == 0x4FB) = true := by decide
/-- T115 and T116 -/
theorem test_ld_b_top : nextIs (run1 0xF033 ((r0.setV 0 0xFE).setI 0xFFD)) (fun t =>
    t.mem.readBytes 0xFFD 3 == [2, 5, 4] && t.i == 0xFFD) = true := by decide
theorem test_ld_b_fault : nextIs (run1 0xF033 (((r0.setV 0 0xFE).setI 0xFFE).setPc 0x250)) (fun t =>
    isFault t .memRange 0x250 0x1000 && t.mem.readBytes 0xFFE 2 == [0, 0]) = true := by decide
/-- T117 and T118 -/
theorem test_ld_mem : nextIs (run1 0xF355 (((((r0.setV 0 0x11).setV 1 0x22).setV 2 0x33).setV 3 0x44).setI 0x300)) (fun t =>
    t.mem.readBytes 0x300 5 == [0x11, 0x22, 0x33, 0x44, 0] && t.i == 0x300) = true := by decide
theorem test_ld_mem_increment :
    nextIs (run1 0xF355 (withCfg (fun p => { p with loadStoreIncrementsI := true }) (r0.setI 0x300)))
      (fun t => t.i == 0x304) = true := by decide
/-- T122 and T126 -/
theorem test_ld_vx_mem : nextIs (run1 0xF265 ((r0.setMem [(0x300, 0xAA), (0x301, 0xBB), (0x302, 0xCC)]).setI 0x300)) (fun t =>
    t.v.toList.take 4 == [0xAA, 0xBB, 0xCC, 0] && t.i == 0x300) = true := by decide
theorem test_ld_vx_mem_fault : nextIs (run1 0xF165 ((r0.setI 0xFFF).setPc 0x270)) (fun t =>
    isFault t .memRange 0x270 0x1000 && t.v == r0.v) = true := by decide

/-! Keys and timers. -/

/-- T130 and T134 -/
theorem test_skp : nextIs (run1 0xE59E (((r0.setV 5 0x0C).setKeyFlag 0xC true).setPc 0x220)) (fun t => t.pc == 0x224) = true := by
  decide
theorem test_skp_key_range : nextIs (run1 0xE59E ((r0.setV 5 0x10).setPc 0x220)) (fun t =>
    isFault t .keyRange 0x220 0x10 && t.pc == 0x220) = true := by decide
/-- T133 -/
theorem test_sknp : nextIs (run1 0xE5A1 (((r0.setV 5 0x0C).setKeyFlag 0xC true).setPc 0x220)) (fun t => t.pc == 0x222) = true := by
  decide
/-- T136 and T141 -/
theorem test_ld_vx_dt : nextIs (run1 0xF307 (r0.setDt 0x3C)) (fun t => t.getV 3 == 0x3C) = true := by decide
theorem test_ld_vx_dt_per_step :
    nextIs (run1 0xF307 (withCfg (fun p => { p with timerMode := .perStep }) (r0.setDt 5)))
      (fun t => t.getV 3 == 5 && t.dt == 4) = true := by decide
/-- T142 -/
theorem test_ld_vx_k : nextIs (run1 0xF30A (r0.setPc 0x230)) (fun t =>
    t.wait == some 3 && t.pc == 0x230 && t.getV 3 == 0) = true := by decide
/-- T137 and T138 -/
theorem test_ld_dt : nextIs (run1 0xFA15 (r0.setV 0xA 3)) (fun t => t.dt == 3) = true := by decide
theorem test_ld_dt_per_step :
    nextIs (run1 0xFA15 (withCfg (fun p => { p with timerMode := .perStep }) (r0.setV 0xA 3)))
      (fun t => t.dt == 2) = true := by decide
/-- T140 -/
theorem test_ld_st : nextIs (run1 0xF118 (r0.setV 1 0x1E)) (fun t => t.st == 0x1E && t.soundActive) = true := by decide

/-! Host events. -/

/-- T146: the wait ends on a press, and VF takes the key. -/
theorem test_set_key_completes :
    let t := ((r0.setWait (some 0xF)).setPc 0x230).setKey 0xE true
    (t.getV 0xF, t.wait, t.pc, t.keyFlag 0xE) = (0x0E, none, 0x232, true) := by decide
/-- T144: a key already held ends nothing. -/
theorem test_set_key_no_transition :
    ((r0.setWait (some 3)).setKeyFlag 7 true).setKey 7 true = (r0.setWait (some 3)).setKeyFlag 7 true := by decide
/-- T147: the deferred tick. -/
theorem test_set_key_deferred_tick :
    ((withCfg (fun p => { p with timerMode := .perStep }) ((r0.setWait (some 3)).setDt 4)).setKey 2 true).dt = 3 := by
  decide
/-- T149 and T163 -/
theorem test_tick60 : ((r0.setSt 2).tick60.dt, (r0.setSt 2).tick60.st) = (0, 1) := by decide
theorem test_tick60_per_step :
    (withCfg (fun p => { p with timerMode := .perStep }) (r0.setDt 2)).tick60.dt = 2 := by decide
/-- R288 -/
theorem test_load_program : (r0.loadProgram [0x12, 0x00]).2.mem = [(0x200, 0x12)] := by decide
/-- T165: what `reset` clears. -/
theorem test_reset_event : ((r0.raise .keyRange 0x10).setMem [(0x200, 1)]).resetEvent = r0 := by decide

/-! ## Witnesses: states and operands that meet each statement's hypotheses -/

open Sys2Proof.Claims

/-- The reset state under `TIMER_MODE = per_step`, and under `STACK_POLICY = fault`. -/
def perStep (s : State) : State := withCfg (fun p => { p with timerMode := .perStep }) s
def faulting (s : State) : State := withCfg (fun p => { p with stackPolicy := .fault }) s

theorem witness_DecodeOfEncodeIsTheInstruction :
    (Instr.cls).wellFormed = true ∧ (Instr.drw 0xF 0xF 0xF).wellFormed = true ∧ (Instr.jp 0xFFF).wellFormed = true ∧
    (Instr.rnd 0xF 0xFF).wellFormed = true := by decide

theorem witness_DecodedWordIsTheEncoding :
    decode 0x00E0 = .instr .cls ∧ decode 0xFF65 = .instr (.ldVxMem 0xF) ∧ decode 0xDFFF = .instr (.drw 0xF 0xF 0xF) := by
  decide

theorem witness_DecodeAcceptsExactlyTheTablesWords :
    (∃ row ∈ opcodeTable, (0x00EE : Word) &&& row.mask = row.value) ∧ decode 0x00EE = .instr .ret ∧
    (∀ row ∈ opcodeTable, (0x00EF : Word) &&& row.mask ≠ row.value) := by
  refine ⟨⟨Instr.ret.row, by decide, by decide⟩, by decide, by decide⟩

theorem witness_NoWordMatchesTwoTableRows :
    0 < opcodeTable.length ∧ 33 < opcodeTable.length ∧ (0x00E0 : Word) &&& opcodeTable[0].mask = opcodeTable[0].value := by
  decide

theorem witness_FetchIsBigEndian : (r0.setPc 0).pc.toNat + 1 ≤ 0xFFF ∧ (r0.setPc 0xFFE).pc.toNat + 1 ≤ 0xFFF := by decide

/-- The last fetchable address, with an instruction placed there, under both timer modes. -/
theorem witness_StepRunsTheDecodedInstruction :
    let s := (r0.setPc 0xFFE).withFetchWord 16 0x1200
    let t := (perStep (r0.setPc 0xFFE)).withFetchWord 16 0x1200
    (s.fault = none ∧ s.wait = none ∧ s.pc.toNat + 1 ≤ 0xFFF ∧
      decode (wordOfBytes (s.mem.read s.pc.toNat) (s.mem.read (s.pc.toNat + 1))) = .instr (.jp 0x200)) ∧
    (t.fault = none ∧ t.wait = none ∧ t.pc.toNat + 1 ≤ 0xFFF ∧
      decode (wordOfBytes (t.mem.read t.pc.toNat) (t.mem.read (t.pc.toNat + 1))) = .instr (.jp 0x200)) := by decide

theorem witness_UnsupportedWordIsReportedAndSkipped :
    let s := r0.withFetchWord 16 0x0123
    let t := (perStep (r0.setPc 0xFFE)).withFetchWord 16 0xF0FF
    (s.fault = none ∧ s.wait = none ∧ s.fetch = some 0x0123 ∧ decode 0x0123 = .unsupported 0x0123 ∧
      s.cfg.timerMode = .externalTick) ∧
    (t.fault = none ∧ t.wait = none ∧ t.fetch = some 0xF0FF ∧ decode 0xF0FF = .unsupported 0xF0FF ∧
      t.cfg.timerMode = .perStep) := by decide

theorem witness_FetchBeyondMemoryFaults :
    (r0.setPc 0xFFF).fault = none ∧ (r0.setPc 0xFFF).wait = none ∧ 0xFFF < (r0.setPc 0xFFF).pc.toNat + 1 ∧
    (r0.setPc 0xFFFF).fault = none ∧ (r0.setPc 0xFFFF).wait = none ∧ 0xFFF < (r0.setPc 0xFFFF).pc.toNat + 1 := by decide

theorem witness_HeldStepChangesNothing :
    (r0.raise .keyRange 0x10).fault ≠ none ∧ (r0.setWait (some 0)).wait ≠ none := by decide

/-- The reset state's step: the zero word at 0x200 is unsupported. -/
theorem witness_StepKeepsInv : State.reset.Inv ∧ ∃ t, step State.reset = .next t :=
  ⟨⟨by decide, by decide, by decide, by decide, by decide⟩, _, rfl⟩

theorem witness_ReachableStatesSatisfyInv : (State.resetWith defaultParams).Reachable :=
  ⟨defaultParams, [], rfl⟩

/-- A step that faults with this record. -/
def FaultsWith (s : State) (r : FaultRecord) : Prop := s.fault = none ∧ ∃ t, step s = .next t ∧ t.fault = some r

/-- A fault of each cause of R271: the hypotheses of the two statements about a step that faults. -/
theorem witness_EveryFaultIsPrecise_FaultsFollowTheCauseTable :
    FaultsWith (r0.setPc 0xFFF) ⟨.fetchRange, 0xFFF, 0xFFF⟩ ∧
    FaultsWith ((r0.setI 0xFFE).withFetchWord 16 0xF033) ⟨.memRange, 0x200, 0x1000⟩ ∧
    FaultsWith ((r0.setV 5 0xFF).withFetchWord 16 0xE59E) ⟨.keyRange, 0x200, 0xFF⟩ ∧
    FaultsWith ((faulting r0).withFetchWord 16 0x00EE) ⟨.stackUnderflow, 0x200, 0⟩ ∧
    FaultsWith ((faulting (withStack 16 0 0 r0)).withFetchWord 16 0x2300) ⟨.stackOverflow, 0x200, 0⟩ :=
  ⟨⟨rfl, _, rfl, rfl⟩, ⟨rfl, _, rfl, rfl⟩, ⟨rfl, _, rfl, rfl⟩, ⟨rfl, _, rfl, rfl⟩, ⟨rfl, _, rfl, rfl⟩⟩

theorem witness_OnlyResetClearsFault :
    ∃ r, (r0.raise .keyRange 0x10).fault = some r ∧ (∃ t, applyEvent .reset (r0.raise .keyRange 0x10) = .next t) ∧
      (∃ t, applyEvent (.setKey 1 true) (r0.raise .keyRange 0x10) = .next t) :=
  ⟨_, rfl, ⟨_, rfl⟩, ⟨_, rfl⟩⟩

/-- A step that reports, one that faults, and one that does neither. -/
theorem witness_StepEmitsAtMostOneReportOrFault :
    (∃ t, run1 0x0123 r0 = .next t ∧ t.reports ≠ r0.reports) ∧ (∃ t, step (r0.setPc 0xFFF) = .next t ∧ t.fault ≠ r0.fault) ∧
    (∃ t, run1 0x00E0 r0 = .next t ∧ t.reports = r0.reports ∧ t.fault = r0.fault) :=
  ⟨⟨_, rfl, by decide⟩, ⟨_, rfl, by decide⟩, ⟨_, rfl, by decide, by decide⟩⟩

/-- A register form, a storing form and a stack form. -/
theorem witness_InstructionsWriteOnlyWhatTheyName :
    (∃ t, exec (.addVxVy 1 2) r0 = .next t) ∧ (∃ t, exec (.ldMemVx 3) (r0.setI 0x300) = .next t) ∧
    (∃ t, exec (.call 0x300) r0 = .next t) :=
  ⟨⟨_, rfl⟩, ⟨_, rfl⟩, ⟨_, rfl⟩⟩

theorem witness_FlagInstructionsLeaveZeroOrOne :
    (writesFlag (.shl 0xF 0) = true ∧ dataBytes (.shl 0xF 0) = 0 ∧ ∃ t, exec (.shl 0xF 0) r0 = .next t) ∧
    (writesFlag (.drw 0 1 0xF) = true ∧ (r0.setI 0xFF1).i.toNat + (dataBytes (.drw 0 1 0xF) - 1) ≤ 0xFFF ∧
      ∃ t, exec (.drw 0 1 0xF) (r0.setI 0xFF1) = .next t) :=
  ⟨⟨rfl, rfl, _, rfl⟩, ⟨rfl, by decide, _, rfl⟩⟩

theorem witness_FinalStatesStayFinal :
    (r0.withFetchWord 16 0x1200).final = true ∧ (r0.raise .memRange 0x1000).final = true := by decide

/-- No rows with I out of memory, one row at the last byte, fifteen rows that end there. -/
theorem witness_DrwXorsTheSpriteAndReportsCollision :
    (0 : Fin 16).val = 0 ∧ (r0.setI 0xFFF).i.toNat + ((1 : Fin 16).val - 1) ≤ 0xFFF ∧
    (r0.setI 0xFF1).i.toNat + ((0xF : Fin 16).val - 1) ≤ 0xFFF := by decide

/-- The top left pixel of glyph "0" is covered, under `wrap` and under `clip`, and under `wrap` also past the corner. -/
theorem witness_spriteCovers :
    spriteCovers r0 0 1 5 0 0 ∧ spriteCovers (withCfg (fun p => { p with spriteEdge := .clip }) r0) 0 1 5 0 0 ∧
    spriteCovers ((r0.setV 0 61).setV 1 31) 0 1 5 0 0 :=
  ⟨⟨0, by decide, 0, by decide, by decide, by decide, by decide⟩, ⟨0, by decide, 0, by decide, by decide, by decide, by decide⟩,
    ⟨1, by decide, 3, by decide, by decide, by decide, by decide⟩⟩

/-- Coordinates that the first draw leaves alone: in V0 and V1, and in a VF that the flag happens to equal. -/
theorem witness_DrwTwiceRestoresTheDisplay :
    (∃ t, exec (.drw 0 1 5) r0 = .next t ∧ (0 : Reg) ≠ 0xF ∧ t.getV 0 = r0.getV 0 ∧ t.getV 1 = r0.getV 1) ∧
    (∃ t, exec (.drw 0xF 0xF 5) r0 = .next t ∧ t.getV 0xF = r0.getV 0xF) :=
  ⟨⟨_, rfl, by decide, by decide, by decide⟩, ⟨_, rfl, by decide⟩⟩

/-- Each of the four instructions, one byte too high. -/
theorem witness_AccessAboveMemoryFaults :
    (dataBytes (.drw 0 1 2) ≠ 0 ∧ 0xFFF < (r0.setI 0xFFF).i.toNat + (dataBytes (.drw 0 1 2) - 1)) ∧
    (dataBytes (.ldBVx 0) ≠ 0 ∧ 0xFFF < (r0.setI 0xFFE).i.toNat + (dataBytes (.ldBVx 0) - 1)) ∧
    (dataBytes (.ldMemVx 0) ≠ 0 ∧ 0xFFF < (r0.setI 0x1000).i.toNat + (dataBytes (.ldMemVx 0) - 1)) ∧
    (dataBytes (.ldVxMem 0xF) ≠ 0 ∧ 0xFFF < (r0.setI 0xFF1).i.toNat + (dataBytes (.ldVxMem 0xF) - 1)) := by decide

theorem witness_RetGoesPastTheCall : (withStack 1 0 0x204 r0).sp.val ≠ 0 ∧ (withStack 16 15 0x204 r0).sp.val ≠ 0 := by
  decide

theorem witness_RetOnEmptyStackFollowsThePolicy :
    r0.sp.val = 0 ∧ r0.cfg.stackPolicy = .report ∧ (faulting r0).sp.val = 0 ∧ (faulting r0).cfg.stackPolicy = .fault := by
  decide

theorem witness_CallPushesItsOwnAddress_CallThenRetComesBack :
    r0.sp.val ≠ 16 ∧ (withStack 15 0 0 r0).sp.val ≠ 16 ∧ (0 : Fin 16).val ≠ (withStack 15 0 0 r0).sp.val := by decide

theorem witness_CallOnFullStackFollowsThePolicy :
    (withStack 16 0 0 r0).sp.val = 16 ∧ (withStack 16 0 0 r0).cfg.stackPolicy = .report ∧
    (faulting (withStack 16 0 0 r0)).sp.val = 16 ∧ (faulting (withStack 16 0 0 r0)).cfg.stackPolicy = .fault := by decide

/-- Both sides of each skip's condition, equal and different. -/
theorem witness_ImmediateSkips_RegisterSkips :
    (r0.setV 0xF 0xFF).getV 0xF = 0xFF ∧ (r0.setV 0xF 0xFF).getV 0xF ≠ 0xFE ∧ r0.getV 0 = r0.getV 0xF ∧
    (r0.setV 0 1).getV 0 ≠ (r0.setV 0 1).getV 0xF := by decide

/-- The sums 255 and 256, with and without VF as the destination. -/
theorem witness_AddSetsCarry :
    (0 : Reg) ≠ 0xF ∧
    (((r0.setV 0 0xFF).setV 1 0).getV 0).toNat + (((r0.setV 0 0xFF).setV 1 0).getV 1).toNat ≤ 255 ∧
    255 < (((r0.setV 0 0xFF).setV 1 1).getV 0).toNat + (((r0.setV 0 0xFF).setV 1 1).getV 1).toNat := by decide

/-- Equal operands, and one less on either side. -/
theorem witness_SubtractionsSetNoBorrow :
    (r0.getV 1).toNat ≤ (r0.getV 0).toNat ∧ ((r0.setV 1 1).getV 0).toNat < ((r0.setV 1 1).getV 1).toNat ∧
    (r0.getV 0).toNat ≤ (r0.getV 1).toNat ∧ ((r0.setV 0 1).getV 1).toNat < ((r0.setV 0 1).getV 0).toNat := by decide

/-- I + V[x] at 0xFFF, at 0x1000 and past 0xFFFF. -/
theorem witness_AddIndexFlagsRange :
    ((r0.setI 0xFFE).setV 0 1).i.toNat + (((r0.setI 0xFFE).setV 0 1).getV 0).toNat ≤ 0xFFF ∧
    0xFFF < ((r0.setI 0xFFF).setV 0 1).i.toNat + (((r0.setI 0xFFF).setV 0 1).getV 0).toNat ∧
    0xFFF < ((r0.setI 0xFFFF).setV 0 1).i.toNat + (((r0.setI 0xFFFF).setV 0 1).getV 0).toNat := by decide

theorem witness_DecimalStore :
    (r0.setI 0xFFD).mem.wf = true ∧ (r0.setI 0xFFD).i.toNat + 2 ≤ 0xFFF ∧ r0.mem.wf = true ∧ r0.i.toNat + 2 ≤ 0xFFF := by
  decide

/-- V0 alone at the last byte, V0-VF ending there, and both values of `LOADSTORE_INCREMENTS_I`. -/
theorem witness_RegisterStore_RegisterLoad_StoreThenLoadRoundTrips :
    let s := r0.setI 0xFFF
    let t := withCfg (fun p => { p with loadStoreIncrementsI := true }) (r0.setI 0xFF0)
    (s.mem.wf = true ∧ s.i.toNat + (0 : Reg).val ≤ 0xFFF ∧ s.cfg.loadStoreIncrementsI = false) ∧
    (t.mem.wf = true ∧ t.i.toNat + (0xF : Reg).val ≤ 0xFFF ∧ t.cfg.loadStoreIncrementsI = true) := by decide

theorem witness_StoredBytesAreFetched :
    ∃ t, (r0.setI 0xFFE).mem.wf = true ∧ (r0.setI 0xFFE).i.toNat + (1 : Reg).val ≤ 0xFFF ∧ (0 : Reg) < 1 ∧
      exec (.ldMemVx 1) (r0.setI 0xFFE) = .next t ∧ (t.setPc 0xFFE).mem = t.mem ∧
      (t.setPc 0xFFE).pc.toNat = (r0.setI 0xFFE).i.toNat + (0 : Reg).val :=
  ⟨_, by decide, by decide, by decide, rfl, rfl, by decide⟩

/-- Key 0xF pressed and key 0 released. -/
theorem witness_KeySkips :
    let s := (r0.setV 5 0xF).setKeyFlag 0xF true
    (s.getV 5).toNat = (0xF : Key).val ∧ s.keyFlag 0xF = true ∧ (s.getV 0).toNat = (0 : Key).val ∧ s.keyFlag 0 = false := by
  decide

theorem witness_NoSuchKeyFaults : 0xF < ((r0.setV 5 0x10).getV 5).toNat ∧ 0xF < ((r0.setV 5 0xFF).getV 5).toNat := by decide

/-- Steps that run FX07, FX15 and FX18, under both timer modes. -/
theorem witness_DelayTimerRead_TimerWrites :
    let s := fun w => r0.withFetchWord 16 w
    let t := fun w => (perStep r0).withFetchWord 16 w
    (s 0xF307).fault = none ∧ (s 0xF307).wait = none ∧ (s 0xF307).fetch = some (encode (.ldVxDt 3)) ∧
    (s 0xF315).fetch = some (encode (.ldDtVx 3)) ∧ (s 0xF315).cfg.timerMode = .externalTick ∧
    (t 0xF318).fault = none ∧ (t 0xF318).wait = none ∧ (t 0xF318).fetch = some (encode (.ldStVx 3)) ∧
    (t 0xF318).cfg.timerMode = .perStep := by decide

theorem witness_WaitBeginsAndAKeyPressCompletesIt : r0.keyFlag 0 = false ∧ r0.keyFlag 0xF = false := by decide

/-- A wait that a press ends, under both timer modes, and the three ways in which nothing but the key changes. -/
theorem witness_SetKeySetsTheKeyAndMayEndTheWait :
    let s := r0.setWait (some 0xF)
    (s.wait = some 0xF ∧ s.keyFlag 7 = false ∧ s.cfg.timerMode = .externalTick ∧ (perStep s).cfg.timerMode = .perStep) ∧
    r0.wait = none ∧ (s.setKeyFlag 7 true).keyFlag 7 = true ∧ (0 : Reg) ≠ 0xF ∧ (0 : Key) ≠ 7 := by decide

theorem witness_OnlyAKeyPressOrResetEndsTheWait :
    let s := r0.setWait (some 3)
    s.wait = some 3 ∧ (∃ t, applyEvent (.setKey 7 true) s = .next t ∧ t.wait = none) ∧
    (∃ t, applyEvent .reset s = .next t ∧ t.wait = none) ∧ (∃ t, applyEvent .step s = .next t ∧ t.wait = some 3) :=
  ⟨rfl, ⟨_, rfl, rfl⟩, ⟨_, rfl, rfl⟩, ⟨_, rfl, rfl⟩⟩

/-- Timers at 0 and not at 0. -/
theorem witness_TickCountsDownToZero :
    r0.dt.toNat = 0 ∧ r0.st.toNat = 0 ∧ 0 < (r0.setDt 1).dt.toNat ∧ 0 < (r0.setSt 0xFF).st.toNat := by decide

theorem witness_TickEventFollowsTimerMode :
    (∃ t, applyEvent .tick60 r0 = .next t ∧ r0.cfg.timerMode = .externalTick) ∧
    (∃ t, applyEvent .tick60 (perStep r0) = .next t ∧ (perStep r0).cfg.timerMode = .perStep) :=
  ⟨⟨_, rfl, rfl⟩, ⟨_, rfl, rfl⟩⟩

theorem witness_LoadProgramCopiesOrRejects :
    r0.mem.wf = true ∧ 3584 < (List.replicate 3585 (0 : Byte)).length ∧ (List.replicate 3584 (0 : Byte)).length ≤ 3584 := by
  rw [List.length_replicate, List.length_replicate]; decide

end Sys2Proof.Tests
end

section
namespace Sys2Proof.Machine

/-! ## The two bytes of a fetched word (R64 of 20_memory.md) -/

/-- Bits 15 to 8 of a big-endian word are its first byte. -/
@[simp] theorem extractLsb'_high_wordOfBytes (hi lo : Byte) : (wordOfBytes hi lo).extractLsb' 8 8 = hi :=
  BitVec.extractLsb'_append_eq_left

/-- Bits 7 to 0 of a big-endian word are its second byte. -/
@[simp] theorem extractLsb'_low_wordOfBytes (hi lo : Byte) : (wordOfBytes hi lo).extractLsb' 0 8 = lo :=
  BitVec.extractLsb'_append_eq_right

/-- Settles O6: where PC is fetchable the fetch is the big-endian word of the bytes at PC and PC + 1, so the claim is the
value and the two byte slices of that word. -/
theorem fetchIsBigEndian : Obligations.FetchIsBigEndian := by
  unfold Obligations.FetchIsBigEndian
  intro s hpc
  exact ⟨s.mem.wordAt s.pc.toNat, s.fetch_eq_some hpc, toNat_wordOfBytes _ _,
    extractLsb'_high_wordOfBytes _ _, extractLsb'_low_wordOfBytes _ _⟩

end Sys2Proof.Machine
end

section
namespace Sys2Proof.Machine

open Sys2Proof.Claims

/-! ## The step of an unsupported word (R99 of 30_encoding.md) -/

/-- Skipping an unsupported word neither faults nor begins a wait, so the step that skips it ends in a tick. -/
@[simp] theorem State.held_skipUnsupported (s : State) (op : Word) : (s.skipUnsupported op).held = s.held := rfl

/-- The report, the new PC and the timers' tick are all that the step of an unsupported word writes. -/
theorem State.endStep_skipUnsupported {s : State} (h : s.held = false) (op : Word) :
    (s.skipUnsupported op).endStep =
      (((s.emit (.unsupportedOpcode s.pc op)).setPc (s.pc + 2)).setDt
        (if s.cfg.timerMode = .perStep then countDown s.dt else s.dt)).setSt
        (if s.cfg.timerMode = .perStep then countDown s.st else s.st) := by
  rw [State.endStep_eq, State.held_skipUnsupported]
  simp [State.skipUnsupported, h]

/-- A report, a new PC and new timers leave everything else alone, whatever their values. -/
theorem kept_emit_setPc_setDt_setSt (s : State) (r : Report) (pc : Word) (dt st : Byte) :
    Kept { reports := true, dt := true, st := true } s ((((s.emit r).setPc pc).setDt dt).setSt st) := by
  constructor <;> simp

/-- Settles O8: the state after the step is written out as four writes, which give the report, PC, the frame and, for
each timer mode, the timers. -/
theorem unsupportedWordIsReportedAndSkipped : Obligations.UnsupportedWordIsReportedAndSkipped := by
  unfold Obligations.UnsupportedWordIsReportedAndSkipped
  intro s op hfault hwait hfetch hdecode
  have hheld : s.held = false := s.held_eq_false.mpr ⟨hfault, hwait⟩
  refine ⟨_, step_unsupported hheld hfetch hdecode, ?_⟩
  rw [State.endStep_skipUnsupported hheld]
  refine ⟨rfl, rfl, kept_emit_setPc_setDt_setSt s _ _ _ _, fun hmode => ?_, fun hmode => ?_⟩
  · simp [hmode]
  · simp [hmode, toNat_countDown]

end Sys2Proof.Machine
end

section
namespace Sys2Proof.Machine

open Sys2Proof.Claims

/-! ## The cleared display (R120 of 40_display.md) -/

/-- `D[i]` is the pixel at (i mod 64, i div 64), so clearing the pixels clears every index. -/
@[simp] theorem Screen.bit_clear (i : Fin 2048) : Screen.clear.bit i = false :=
  Screen.pixel_clear _ _

/-- CLS shows the cleared display and goes to the next instruction. -/
theorem exec_cls (s : State) : exec .cls s = .next ((s.showScreen Screen.clear).setPc (s.pc + 2)) := rfl

/-- A shown display and a new PC leave everything else alone, whatever their values. -/
theorem kept_showScreen_setPc (s : State) (d : Screen) (pc : Word) :
    Kept { screen := true } s ((s.showScreen d).setPc pc) := by
  constructor <;> simp

/-- Settles O22: the state after CLS is written out as two writes, which give the display, the redraw flag, PC and the
frame; the pixels of the display written are those of the cleared one. -/
theorem clsClearsEveryPixel : Obligations.ClsClearsEveryPixel := by
  unfold Obligations.ClsClearsEveryPixel
  refine ⟨by decide, fun s => ⟨_, exec_cls s, ?_, ?_, rfl, rfl, kept_showScreen_setPc s _ _⟩⟩
  · exact Screen.bit_clear
  · exact Screen.pixel_clear

end Sys2Proof.Machine
end

section
namespace Sys2Proof.Machine

open Sys2Proof.Claims

/-! ## Jumps, returns and skips (41_control.md) -/

/-- A new PC leaves everything else alone. -/
theorem kept_setPc (s : State) (pc : Word) : Kept {} s (s.setPc pc) := by
  constructor <;> simp

/-- A pop and a new PC leave everything but the stack alone. -/
theorem kept_pop_setPc (s : State) (h : s.sp.val ≠ 0) (pc : Word) :
    Kept { stack := true } s ((s.pop h).setPc pc) := by
  constructor <;> simp

/-- RET where the stack is not empty (R140); an empty one is R141's. -/
theorem exec_ret_of_sp_ne_zero {s : State} (h : s.sp.val ≠ 0) :
    exec .ret s = .next ((s.pop h).setPc (s.stackTop h + 2)) :=
  congrArg Host.Outcome.next (dif_neg h)

theorem exec_jp (nnn : Addr12) (s : State) : exec (.jp nnn) s = .next (s.setPc (addrWord nnn)) := rfl

theorem exec_jpV0 (nnn : Addr12) (s : State) :
    exec (.jpV0 nnn) s = .next (s.setPc (addrWord nnn + byteWord (s.getV 0))) := rfl

theorem exec_seVxNn (x : Reg) (nn : Byte) (s : State) :
    exec (.seVxNn x nn) s = .next (s.skipIf (s.getV x == nn)) := rfl

theorem exec_sneVxNn (x : Reg) (nn : Byte) (s : State) :
    exec (.sneVxNn x nn) s = .next (s.skipIf (s.getV x != nn)) := rfl

theorem exec_seVxVy (x y : Reg) (s : State) :
    exec (.seVxVy x y) s = .next (s.skipIf (s.getV x == s.getV y)) := rfl

theorem exec_sneVxVy (x y : Reg) (s : State) :
    exec (.sneVxVy x y) s = .next (s.skipIf (s.getV x != s.getV y)) := rfl

/-- The widened operands of JP V0 add without wrapping: the sum is at most 0xFFF + 0xFF (R149). -/
theorem toNat_addrWord_add_byteWord (nnn : Addr12) (b : Byte) :
    (addrWord nnn + byteWord b).toNat = nnn.toNat + b.toNat := by
  have hsum : (addrWord nnn).toNat + (byteWord b).toNat < 2 ^ 16 := by
    rw [toNat_addrWord, toNat_byteWord]
    omega
  rw [BitVec.toNat_add_of_lt hsum, toNat_addrWord, toNat_byteWord]

/-- What every skip does (R145 to R148), for a condition `c` that is true under `P` and false under `Q`. -/
theorem State.skipIf_spec (s : State) {c : Bool} {P Q : Prop} (hP : P → c = true) (hQ : Q → c = false) :
    (P → (s.skipIf c).pc = s.pc + 4) ∧ (Q → (s.skipIf c).pc = s.pc + 2) ∧ Kept {} s (s.skipIf c) := by
  refine ⟨fun h => ?_, fun h => ?_, kept_setPc s _⟩
  · simp [hP h]
  · simp [hQ h]

/-- Settles O26: RET on a stack that is not empty is a pop, which keeps every entry, and then a new PC. -/
theorem retGoesPastTheCall : Obligations.RetGoesPastTheCall := by
  unfold Obligations.RetGoesPastTheCall
  refine ⟨by decide, fun s h => ⟨_, exec_ret_of_sp_ne_zero h, rfl, rfl, fun j => ?_, kept_pop_setPc s h _⟩⟩
  rw [State.setPc_stackAt, State.pop_stackAt]

/-- Settles O31: each jump only writes PC, and the sum of JP V0 does not wrap. -/
theorem jumpsSetPc : Obligations.JumpsSetPc := by
  unfold Obligations.JumpsSetPc
  intro nnn s
  exact ⟨toNat_encA _ _, toNat_encA _ _,
    ⟨_, exec_jp nnn s, toNat_addrWord nnn, kept_setPc s _⟩,
    ⟨_, exec_jpV0 nnn s, toNat_addrWord_add_byteWord nnn _, kept_setPc s _⟩⟩

/-- Settles O32: both forms are skips, on equality and on difference. -/
theorem immediateSkips : Obligations.ImmediateSkips := by
  unfold Obligations.ImmediateSkips
  intro x nn s
  refine ⟨?_, ?_,
    ⟨_, exec_seVxNn x nn s, s.skipIf_spec beq_iff_eq.mpr beq_eq_false_iff_ne.mpr⟩,
    ⟨_, exec_sneVxNn x nn s, s.skipIf_spec bne_iff_ne.mpr bne_eq_false_iff_eq.mpr⟩⟩
  · simp only [encode, toNat_encXnn, BitVec.reduceToNat]; omega
  · simp only [encode, toNat_encXnn, BitVec.reduceToNat]; omega

/-- Settles O33: both forms are skips, on equality and on difference of the two registers. -/
theorem registerSkips : Obligations.RegisterSkips := by
  unfold Obligations.RegisterSkips
  intro x y s
  refine ⟨?_, ?_,
    ⟨_, exec_seVxVy x y s, s.skipIf_spec beq_iff_eq.mpr beq_eq_false_iff_ne.mpr⟩,
    ⟨_, exec_sneVxVy x y s, s.skipIf_spec bne_iff_ne.mpr bne_eq_false_iff_eq.mpr⟩⟩
  · simp only [encode, toNat_encXyn, BitVec.reduceToNat, Fin.val_zero]; omega
  · simp only [encode, toNat_encXyn, BitVec.reduceToNat, Fin.val_zero]; omega

end Sys2Proof.Machine
end

section
namespace Sys2Proof.Machine

open Sys2Proof.Claims

/-! ## Loading and adding an immediate (R170 and R171 of 42_alu.md) -/

/-- The digits of a word of format XNN: its family, its register and its byte. -/
theorem toNat_encXnn_digits (f : BitVec 4) (x : Reg) (nn : Byte) :
    (encXnn f x nn).toNat = f.toNat * 0x1000 + x.val * 0x100 + nn.toNat := by
  rw [toNat_encXnn]; omega

/-- A register write and a new PC leave everything else alone, the other registers included. -/
theorem kept_setV_setPc (s : State) (x : Reg) (b : Byte) (pc : Word) :
    Kept { regs := [x] } s ((s.setV x b).setPc pc) := by
  constructor
  case regs =>
    intro r hr
    have hne : x ≠ r := fun h => hr (List.mem_singleton.mpr h.symm)
    simp [hne]
  all_goals simp

/-- What every write of one register and next does: it stores the byte, advances PC and keeps the rest. -/
theorem State.setV_next_spec (s : State) (x : Reg) (b : Byte) :
    (s.setV x b).next.getV x = b ∧ (s.setV x b).next.pc = s.pc + 2 ∧
      Kept { regs := [x] } s (s.setV x b).next :=
  ⟨by simp, rfl, kept_setV_setPc s x b _⟩

theorem exec_ldVxNn (x : Reg) (nn : Byte) (s : State) :
    exec (.ldVxNn x nn) s = .next (s.setV x nn).next := rfl

theorem exec_addVxNn (x : Reg) (nn : Byte) (s : State) :
    exec (.addVxNn x nn) s = .next (s.setV x (s.getV x + nn)).next := rfl

/-- Settles O34: the instruction is one register write of `nn`, and then next. -/
theorem loadImmediate : Obligations.LoadImmediate := by
  unfold Obligations.LoadImmediate
  intro x nn s
  exact ⟨toNat_encXnn_digits _ _ _, _, exec_ldVxNn x nn s, s.setV_next_spec x nn⟩

/-- Settles O35: the instruction is one register write of a byte sum, which wraps modulo 256, and then next. -/
theorem addImmediateWrapsWithoutFlag : Obligations.AddImmediateWrapsWithoutFlag := by
  unfold Obligations.AddImmediateWrapsWithoutFlag
  intro x nn s
  obtain ⟨hreg, hpc, hkept⟩ := s.setV_next_spec x (s.getV x + nn)
  refine ⟨toNat_encXnn_digits _ _ _, _, exec_addVxNn x nn s, ?_, hpc, hkept⟩
  rw [hreg, BitVec.toNat_add]

end Sys2Proof.Machine
end

section
namespace Sys2Proof.Machine

open Sys2Proof.Claims

/-! ## Loading the index register (R210 and R212 of 43_index_memory.md) -/

/-- A write of I and a new PC leave everything else alone, memory included. -/
theorem kept_setI_setPc (s : State) (w pc : Word) : Kept { i := true } s ((s.setI w).setPc pc) := by
  constructor <;> simp

/-- What every write of I and next does: it stores the word, advances PC and keeps the rest. -/
theorem State.setI_next_spec (s : State) (w : Word) :
    (s.setI w).next.i = w ∧ (s.setI w).next.pc = s.pc + 2 ∧ Kept { i := true } s (s.setI w).next :=
  ⟨rfl, rfl, kept_setI_setPc s w _⟩

theorem exec_ldINnn (nnn : Addr12) (s : State) :
    exec (.ldINnn nnn) s = .next (s.setI (addrWord nnn)).next := rfl

theorem exec_ldFVx (x : Reg) (s : State) :
    exec (.ldFVx x) s = .next (s.setI (glyphAddr (s.getV x))).next := rfl

/-- Settles O41: the instruction is one write of I, of a widened 12-bit address, and then next. -/
theorem loadIndex : Obligations.LoadIndex := by
  unfold Obligations.LoadIndex
  intro nnn s
  obtain ⟨hi, hpc, hkept⟩ := s.setI_next_spec (addrWord nnn)
  refine ⟨toNat_encA _ _, _, exec_ldINnn nnn s, ?_, ?_, hpc, hkept⟩
  · rw [hi, toNat_addrWord]
  · rw [hi, toNat_addrWord]; omega

/-- Settles O43: the instruction is one write of I, of a product that does not wrap, and then next. -/
theorem glyphAddressIsFiveTimes : Obligations.GlyphAddressIsFiveTimes := by
  unfold Obligations.GlyphAddressIsFiveTimes
  intro x s
  obtain ⟨hi, hpc, hkept⟩ := s.setI_next_spec (glyphAddr (s.getV x))
  refine ⟨?_, _, exec_ldFVx x s, ?_, hpc, hkept⟩
  · simp only [encode, toNat_encXnn_digits, BitVec.reduceToNat]; omega
  · rw [hi, toNat_glyphAddr]

end Sys2Proof.Machine
end

section
namespace Sys2Proof.Machine

open Sys2Proof.Claims

/-! ## The timers (R242, R247, R248 and R252 of 44_keys_timers.md) -/

/-- The word of a family 0xF instruction by its digits: 0xF, the register, the sub-byte (R94, R96). -/
theorem toNat_encXnn_familyF (x : Reg) (nn : Byte) :
    (encXnn 0xF#4 x nn).toNat = 0xF000 + nn.toNat + x.val * 0x100 := by
  rw [toNat_encXnn_digits, show (0xF#4).toNat = 0xF from rfl]; omega

/-- A word of family 0xF is decoded by its sub-byte (R97). -/
theorem decode_encXnn_familyF (x : Reg) (nn : Byte) :
    decode (encXnn 0xF#4 x nn) = decodeFamilyF (encXnn 0xF#4 x nn) := by
  simp [decode]

theorem decode_encode_ldVxDt (x : Reg) : decode (encode (.ldVxDt x)) = .instr (.ldVxDt x) := by
  simp [encode, decode_encXnn_familyF, decodeFamilyF]

theorem decode_encode_ldDtVx (x : Reg) : decode (encode (.ldDtVx x)) = .instr (.ldDtVx x) := by
  simp [encode, decode_encXnn_familyF, decodeFamilyF]

theorem decode_encode_ldStVx (x : Reg) : decode (encode (.ldStVx x)) = .instr (.ldStVx x) := by
  simp [encode, decode_encXnn_familyF, decodeFamilyF]

theorem exec_ldVxDt (x : Reg) (s : State) : exec (.ldVxDt x) s = .next (s.setV x s.dt).next := rfl

theorem exec_ldDtVx (x : Reg) (s : State) : exec (.ldDtVx x) s = .next (s.setDt (s.getV x)).next := rfl

theorem exec_ldStVx (x : Reg) (s : State) : exec (.ldStVx x) s = .next (s.setSt (s.getV x)).next := rfl

/-- A write of DT and a new PC leave everything else alone, ST included. -/
theorem kept_setDt_setPc (s : State) (b : Byte) (pc : Word) : Kept { dt := true } s ((s.setDt b).setPc pc) := by
  constructor <;> simp

/-- A write of ST and a new PC leave everything else alone, DT included. -/
theorem kept_setSt_setPc (s : State) (b : Byte) (pc : Word) : Kept { st := true } s ((s.setSt b).setPc pc) := by
  constructor <;> simp

/-- New timers leave everything else alone, whatever their values. -/
theorem kept_setDt_setSt (s : State) (dt st : Byte) :
    Kept { dt := true, st := true } s ((s.setDt dt).setSt st) := by
  constructor <;> simp

/-- The tick that may end a step writes no register (R90, R252). -/
@[simp] theorem State.endStep_getV (s : State) (r : Reg) : s.endStep.getV r = s.getV r := by
  rw [State.endStep_eq, State.setSt_getV, State.setDt_getV]

/-- Under `external_tick` a step ends without a tick (R253). -/
theorem State.endStep_of_externalTick {s : State} (hmode : s.cfg.timerMode = .externalTick) : s.endStep = s := by
  simp [State.endStep, State.stepTick, hmode]

/-- Under `per_step` a step that neither faulted nor began to wait ends in a tick (R90, R253). -/
theorem State.endStep_of_perStep {s : State} (hmode : s.cfg.timerMode = .perStep) (hheld : s.held = false) :
    s.endStep = s.tick := by
  simp [State.endStep, State.stepTick, hmode, hheld]

/-- A step whose instruction answers `u`, neither faulted nor waiting, ends in `u` itself under `external_tick` and in
the tick of `u` under `per_step` (R90, R253). -/
theorem step_completed {s u : State} {op : Word} {i : Instr} (hfault : s.fault = none) (hwait : s.wait = none)
    (hfetch : s.fetch = some op) (hdecode : decode op = .instr i) (hexec : exec i s = .next u)
    (hcfg : u.cfg = s.cfg) (hheld : u.held = s.held) :
    ∃ t, step s = .next t ∧ (s.cfg.timerMode = .externalTick → t = u) ∧ (s.cfg.timerMode = .perStep → t = u.tick) := by
  have hs : s.held = false := s.held_eq_false.mpr ⟨hfault, hwait⟩
  rw [← hcfg]
  exact ⟨_, step_instr hs hfetch hdecode hexec, State.endStep_of_externalTick,
    fun hmode => State.endStep_of_perStep hmode (hheld.trans hs)⟩

/-- A timer above 0 loses one, and a timer at 0 stays there (R252). -/
theorem countDown_spec (b : Byte) :
    (0 < b.toNat → (countDown b).toNat + 1 = b.toNat) ∧ (b.toNat = 0 → (countDown b).toNat = 0) := by
  rw [toNat_countDown]; omega

/-- Settles O51: FX07 is one register write of DT, and then next; the tick that may end the step comes after that write
and writes no register. -/
theorem delayTimerRead : Obligations.DelayTimerRead := by
  unfold Obligations.DelayTimerRead
  intro x s
  have hspec := s.setV_next_spec x s.dt
  refine ⟨toNat_encXnn_familyF x 0x07, ⟨_, exec_ldVxDt x s, hspec⟩, fun hfault hwait hfetch => ?_⟩
  have hheld : s.held = false := s.held_eq_false.mpr ⟨hfault, hwait⟩
  refine ⟨_, step_instr hheld hfetch (decode_encode_ldVxDt x) (exec_ldVxDt x s), ?_⟩
  rw [State.endStep_getV]
  exact hspec.1

/-- Settles O52: each form is one write of its timer, and then next; a whole step ends there under `external_tick`, and in
a tick of the timer just written under `per_step`. -/
theorem timerWrites : Obligations.TimerWrites := by
  unfold Obligations.TimerWrites
  intro x s
  refine ⟨toNat_encXnn_familyF x 0x15, toNat_encXnn_familyF x 0x18,
    ⟨_, exec_ldDtVx x s, rfl, rfl, kept_setDt_setPc s _ _⟩,
    ⟨_, exec_ldStVx x s, rfl, rfl, kept_setSt_setPc s _ _⟩,
    fun hfault hwait hfetch => ?dt, fun hfault hwait hfetch => ?st⟩
  case dt =>
    obtain ⟨t, hstep, hexternal, hperStep⟩ :=
      step_completed hfault hwait hfetch (decode_encode_ldDtVx x) (exec_ldDtVx x s) rfl rfl
    refine ⟨t, hstep, fun hmode => ?_, fun hmode => ?_⟩
    · rw [hexternal hmode]; rfl
    · rw [hperStep hmode]; exact toNat_countDown _
  case st =>
    obtain ⟨t, hstep, hexternal, hperStep⟩ :=
      step_completed hfault hwait hfetch (decode_encode_ldStVx x) (exec_ldStVx x s) rfl rfl
    refine ⟨t, hstep, fun hmode => ?_, fun hmode => ?_⟩
    · rw [hexternal hmode]; rfl
    · rw [hperStep hmode]; exact toNat_countDown _

/-- Settles O56: a tick is two writes, each of its own timer counted down, which give both timers, PC and the frame. -/
theorem tickCountsDownToZero : Obligations.TickCountsDownToZero := by
  unfold Obligations.TickCountsDownToZero
  intro s
  obtain ⟨hdtPos, hdtZero⟩ := countDown_spec s.dt
  obtain ⟨hstPos, hstZero⟩ := countDown_spec s.st
  exact ⟨hdtPos, hdtZero, hstPos, hstZero, rfl, kept_setDt_setSt s _ _⟩

end Sys2Proof.Machine
end

section
namespace Sys2Proof.Machine

/-! ## The host's redraw acknowledgement (R287) -/

theorem applyEvent_clearRedraw (s : State) : applyEvent .clearRedraw s = .next s.clearRedraw := rfl

/-- The whole effect of `clearRedraw()` is one field update (R287). -/
theorem State.clearRedraw_eq (s : State) : s.clearRedraw = { s with rp := false } := rfl

@[simp] theorem State.clearRedraw_isRedrawPending (s : State) : s.clearRedraw.isRedrawPending = false :=
  s.clearRp_rp

@[simp] theorem State.clearRedraw_getDisplayBuffer (s : State) :
    s.clearRedraw.getDisplayBuffer = s.getDisplayBuffer :=
  s.clearRp_display

/-- Settles O58: the event writes RP alone; `isRedrawPending` reads it, and `getDisplayBuffer` reads D. -/
theorem clearRedrawClearsRpOnly : Obligations.ClearRedrawClearsRpOnly := by
  unfold Obligations.ClearRedrawClearsRpOnly
  intro s
  exact ⟨s.clearRedraw, applyEvent_clearRedraw s, s.clearRedraw_eq,
    s.clearRedraw_isRedrawPending, s.clearRedraw_getDisplayBuffer⟩

end Sys2Proof.Machine
end

section
namespace Sys2Proof

open Sys2Proof.Laws

/-! ## Decode and encode are inverse (R94 to R98 of 30_encoding.md) -/

/-- The decoder reads back every format's fields, and the family or sub-code it selects by is the one encoded. -/
theorem decode_encode (i : Instr) : decode (encode i) = .instr i := by
  cases i
  case cls | ret => rfl
  -- format A
  case jp | call | ldINnn | jpV0 => simp [encode, decode]
  -- format XNN
  case seVxNn | sneVxNn | ldVxNn | addVxNn | rnd => simp [encode, decode]
  -- format XYN, and format XY outside family 8
  case seVxVy | sneVxVy | drw => simp [encode, decode]
  -- family 8
  case ldVxVy | orVxVy | andVxVy | xorVxVy | addVxVy | sub | shr | subn | shl =>
    simp [encode, decode, decodeFamily8]
  -- families E and F
  case skp | sknp => simp [encode, decode, decodeFamilyE]
  case ldVxDt | ldVxK | ldDtVx | ldStVx | addIVx | ldFVx | ldBVx | ldMemVx | ldVxMem =>
    simp [encode, decode, decodeFamilyF]

/-- Settles O1: the word decodes by `decode_encode`, and the bytes of a word are read back as that word. -/
theorem decodeOfEncodeIsTheInstruction : Obligations.DecodeOfEncodeIsTheInstruction := by
  unfold Obligations.DecodeOfEncodeIsTheInstruction
  intro i rest _
  refine ⟨decode_encode i, ?_⟩
  rw [encodeBytes, decodeBytes_bytesOfWord, decode_encode]

/-! The families with sub-codes: a word is rebuilt from its family, its sub-code and the registers decode read. -/

theorem encode_of_decodeFamily8 {op : Word} {i : Instr} (hf : opFamily op = 0x8#4)
    (h : decodeFamily8 op = .instr i) : encode i = op := by
  unfold decodeFamily8 at h
  split at h <;> cases h
  all_goals exact encXyn_fields op _ _ hf (Fin.ext ‹_›)

theorem encode_of_decodeFamilyE {op : Word} {i : Instr} (hf : opFamily op = 0xE#4)
    (h : decodeFamilyE op = .instr i) : encode i = op := by
  unfold decodeFamilyE at h
  split at h <;> cases h
  all_goals exact encXnn_fields op _ _ hf (BitVec.eq_of_toNat_eq ‹_›)

theorem encode_of_decodeFamilyF {op : Word} {i : Instr} (hf : opFamily op = 0xF#4)
    (h : decodeFamilyF op = .instr i) : encode i = op := by
  unfold decodeFamilyF at h
  split at h <;> cases h
  all_goals exact encXnn_fields op _ _ hf (BitVec.eq_of_toNat_eq ‹_›)

/-- A word that selects none of the families 0x0 to 0xE is of family 0xF. -/
theorem opFamily_eq_F {op : Word} (h : 0xE < (opFamily op).toNat) : opFamily op = 0xF#4 :=
  BitVec.eq_of_toNat_eq (show (opFamily op).toNat = 15 by have := (opFamily op).isLt; omega)

/-- Strict decode reads every digit of a word it accepts: the word is rebuilt from the fields. -/
theorem encode_of_decode {op : Word} {i : Instr} (h : decode op = .instr i) : encode i = op := by
  unfold decode at h
  split at h
  case h_1 =>
    split at h
    · next heq => cases h; exact heq.symm
    split at h
    · next heq => cases h; exact heq.symm
    · cases h
  -- families 0x5 and 0x9, with a sub-code
  case h_6 hf | h_10 hf =>
    split at h <;> cases h
    next hn => exact encXyn_fields op _ _ (BitVec.eq_of_toNat_eq hf) (Fin.ext hn)
  case h_9 hf => exact encode_of_decodeFamily8 (BitVec.eq_of_toNat_eq hf) h
  case h_15 hf => exact encode_of_decodeFamilyE (BitVec.eq_of_toNat_eq hf) h
  case h_16 =>
    simp only [imp_false] at *
    exact encode_of_decodeFamilyF (opFamily_eq_F (by omega)) h
  case h_14 hf => cases h; exact encXyn_fields op _ _ (BitVec.eq_of_toNat_eq hf) rfl
  -- format A
  case h_2 hf | h_3 hf | h_11 hf | h_12 hf => cases h; exact encA_fields op _ (BitVec.eq_of_toNat_eq hf)
  -- format XNN
  all_goals next hf => cases h; exact encXnn_fields op _ _ (BitVec.eq_of_toNat_eq hf) rfl

/-- Settles O2: the word is rebuilt from the fields decode read. -/
theorem decodedWordIsTheEncoding : Obligations.DecodedWordIsTheEncoding := by
  unfold Obligations.DecodedWordIsTheEncoding
  intro op i h
  exact encode_of_decode h

/-! ## The rows of the opcode map (R96) -/

/-- Two rows that some word belongs to both fix the same digits wherever both fix them. -/
theorem OpRow.values_agree {r r' : OpRow} {op : Word} (h : op &&& r.mask = r.value) (h' : op &&& r'.mask = r'.value) :
    r.value &&& r'.mask = r'.value &&& r.mask := by
  rw [← h, ← h', BitVec.and_assoc, BitVec.and_assoc, BitVec.and_comm r.mask]

/-- Every two rows of the table differ in a digit that both fix (R96). -/
theorem opcodeTable_pairwise_differ :
    opcodeTable.Pairwise fun r r' => r.value &&& r'.mask ≠ r'.value &&& r.mask := by
  decide

/-- Settles O4: a word of two rows would have the digits both fix from both, and every two rows differ in one. -/
theorem noWordMatchesTwoTableRows : Obligations.NoWordMatchesTwoTableRows := by
  unfold Obligations.NoWordMatchesTwoTableRows
  refine ⟨rfl, fun op j k hj hk hopj hopk => ?_⟩
  have hdiffer := List.pairwise_iff_getElem.mp opcodeTable_pairwise_differ
  rcases Nat.lt_trichotomy j k with hlt | heq | hgt
  · exact absurd (OpRow.values_agree hopj hopk) (hdiffer j k hj hk hlt)
  · exact heq
  · exact absurd (OpRow.values_agree hopk hopj) (hdiffer k j hk hj hgt)

/-- Every instruction's word belongs to its own row, which is in the table. -/
theorem matchesRow : (i : Instr) → MatchesRow.Statement i
  | .cls => MatchesRow.cls | .ret => MatchesRow.ret
  | .jp _ => MatchesRow.jp _ | .call _ => MatchesRow.call _
  | .seVxNn _ _ => MatchesRow.seVxNn _ _ | .sneVxNn _ _ => MatchesRow.sneVxNn _ _
  | .seVxVy _ _ => MatchesRow.seVxVy _ _ | .sneVxVy _ _ => MatchesRow.sneVxVy _ _
  | .ldVxNn _ _ => MatchesRow.ldVxNn _ _ | .addVxNn _ _ => MatchesRow.addVxNn _ _
  | .ldVxVy _ _ => MatchesRow.ldVxVy _ _ | .orVxVy _ _ => MatchesRow.orVxVy _ _
  | .andVxVy _ _ => MatchesRow.andVxVy _ _ | .xorVxVy _ _ => MatchesRow.xorVxVy _ _
  | .addVxVy _ _ => MatchesRow.addVxVy _ _ | .sub _ _ => MatchesRow.sub _ _
  | .shr _ _ => MatchesRow.shr _ _ | .subn _ _ => MatchesRow.subn _ _ | .shl _ _ => MatchesRow.shl _ _
  | .ldINnn _ => MatchesRow.ldINnn _ | .jpV0 _ => MatchesRow.jpV0 _
  | .rnd _ _ => MatchesRow.rnd _ _ | .drw _ _ _ => MatchesRow.drw _ _ _
  | .skp _ => MatchesRow.skp _ | .sknp _ => MatchesRow.sknp _
  | .ldVxDt _ => MatchesRow.ldVxDt _ | .ldVxK _ => MatchesRow.ldVxK _
  | .ldDtVx _ => MatchesRow.ldDtVx _ | .ldStVx _ => MatchesRow.ldStVx _
  | .addIVx _ => MatchesRow.addIVx _ | .ldFVx _ => MatchesRow.ldFVx _ | .ldBVx _ => MatchesRow.ldBVx _
  | .ldMemVx _ => MatchesRow.ldMemVx _ | .ldVxMem _ => MatchesRow.ldVxMem _

/-- A word that decodes to an instruction belongs to that instruction's row. -/
theorem row_of_decode {op : Word} {i : Instr} (h : decode op = .instr i) :
    i.row ∈ opcodeTable ∧ op &&& i.row.mask = i.row.value := by
  obtain ⟨hcovers, hmem⟩ := matchesRow i
  rw [encode_of_decode h, OpRow.covers, beq_iff_eq] at hcovers
  exact ⟨hmem, hcovers⟩

/-- The 34 instructions, in the table's order, each with the operands of `op`'s fields. -/
def formsOf (op : Word) : List Instr :=
  let x := opX op; let y := opY op; let nn := opNn op; let nnn := opNnn op
  [.cls, .ret, .jp nnn, .call nnn, .seVxNn x nn, .sneVxNn x nn, .seVxVy x y, .ldVxNn x nn, .addVxNn x nn,
    .ldVxVy x y, .orVxVy x y, .andVxVy x y, .xorVxVy x y, .addVxVy x y, .sub x y, .shr x y, .subn x y, .shl x y,
    .sneVxVy x y, .ldINnn nnn, .jpV0 nnn, .rnd x nn, .drw x y (opN op), .skp x, .sknp x, .ldVxDt x, .ldVxK x,
    .ldDtVx x, .ldStVx x, .addIVx x, .ldFVx x, .ldBVx x, .ldMemVx x, .ldVxMem x]

/-- The rows of the 34 forms are the table. -/
theorem map_row_formsOf (op : Word) : (formsOf op).map Instr.row = opcodeTable := rfl

/-! A word of a row has the row's fixed digits, so it is the encoding of its own fields. -/

theorem encode_of_exact_mask {op v : Word} (h : op &&& 0xFFFF#16 = v) : v = op := by
  rw [← h]; exact BitVec.and_allOnes

theorem opFamily_of_mask {f : BitVec 4} {op v : Word} (hv : v.toNat = f.toNat * 4096) (h : op &&& 0xF000#16 = v) :
    opFamily op = f := by
  have hand := toNat_and_F000 op
  rw [h] at hand
  exact BitVec.eq_of_toNat_eq (by rw [toNat_opFamily]; omega)

theorem encA_of_mask (f : BitVec 4) {op v : Word} (hv : v.toNat = f.toNat * 4096) (h : op &&& 0xF000#16 = v) :
    encA f (opNnn op) = op :=
  encA_fields op f (opFamily_of_mask hv h)

theorem encXnn_of_mask (f : BitVec 4) {op v : Word} (hv : v.toNat = f.toNat * 4096) (h : op &&& 0xF000#16 = v) :
    encXnn f (opX op) (opNn op) = op :=
  encXnn_fields op f _ (opFamily_of_mask hv h) rfl

theorem encXyn_of_mask (f : BitVec 4) {op v : Word} (hv : v.toNat = f.toNat * 4096) (h : op &&& 0xF000#16 = v) :
    encXyn f (opX op) (opY op) (opN op) = op :=
  encXyn_fields op f _ (opFamily_of_mask hv h) rfl

theorem encX_of_mask (f : BitVec 4) (nn : Byte) {op v : Word} (hv : v.toNat = f.toNat * 4096 + nn.toNat)
    (h : op &&& 0xF0FF#16 = v) : encXnn f (opX op) nn = op := by
  have hand := toNat_and_F0FF op
  rw [h] at hand
  have := nn.isLt
  exact encXnn_fields op f nn (BitVec.eq_of_toNat_eq (by rw [toNat_opFamily]; omega))
    (BitVec.eq_of_toNat_eq (by rw [toNat_opNn]; omega))

theorem encXy_of_mask (f : BitVec 4) (n : Fin 16) {op v : Word} (hv : v.toNat = f.toNat * 4096 + n.val)
    (h : op &&& 0xF00F#16 = v) : encXyn f (opX op) (opY op) n = op := by
  have hand := toNat_and_F00F op
  rw [h] at hand
  exact encXyn_fields op f n (BitVec.eq_of_toNat_eq (by rw [toNat_opFamily]; omega))
    (Fin.ext (by rw [val_opN]; omega))

/-- A word is the encoding of the form whose row it belongs to. -/
theorem encode_formsOf (op : Word) : ∀ i ∈ formsOf op, op &&& i.row.mask = i.row.value → encode i = op := by
  simp only [formsOf, List.forall_mem_cons]
  exact ⟨encode_of_exact_mask, encode_of_exact_mask, encA_of_mask _ rfl, encA_of_mask _ rfl,
    encXnn_of_mask _ rfl, encXnn_of_mask _ rfl, encXy_of_mask _ _ rfl, encXnn_of_mask _ rfl, encXnn_of_mask _ rfl,
    encXy_of_mask _ _ rfl, encXy_of_mask _ _ rfl, encXy_of_mask _ _ rfl, encXy_of_mask _ _ rfl, encXy_of_mask _ _ rfl,
    encXy_of_mask _ _ rfl, encXy_of_mask _ _ rfl, encXy_of_mask _ _ rfl, encXy_of_mask _ _ rfl, encXy_of_mask _ _ rfl,
    encA_of_mask _ rfl, encA_of_mask _ rfl, encXnn_of_mask _ rfl, encXyn_of_mask _ rfl, encX_of_mask _ _ rfl,
    encX_of_mask _ _ rfl, encX_of_mask _ _ rfl, encX_of_mask _ _ rfl, encX_of_mask _ _ rfl, encX_of_mask _ _ rfl,
    encX_of_mask _ _ rfl, encX_of_mask _ _ rfl, encX_of_mask _ _ rfl, encX_of_mask _ _ rfl, encX_of_mask _ _ rfl,
    List.forall_mem_nil _⟩

/-- A word of any row of the table decodes to an instruction: the form of that row. -/
theorem exists_decode_of_row {op : Word} {row : OpRow} (hmem : row ∈ opcodeTable) (h : op &&& row.mask = row.value) :
    ∃ i, decode op = .instr i := by
  rw [← map_row_formsOf op] at hmem
  obtain ⟨i, hi, rfl⟩ := List.mem_map.mp hmem
  exact ⟨i, by rw [← encode_formsOf op i hi h, decode_encode]⟩

/-- Settles O3: a word of a row is the encoding of that row's form, and a word that decodes is its own encoding, which
belongs to its row; so a word of no row decodes to no instruction, and is handed back. -/
theorem decodeAcceptsExactlyTheTablesWords : Obligations.DecodeAcceptsExactlyTheTablesWords := by
  unfold Obligations.DecodeAcceptsExactlyTheTablesWords
  intro op
  refine ⟨⟨fun ⟨_, hmem, h⟩ => exists_decode_of_row hmem h, fun ⟨i, h⟩ => ⟨i.row, row_of_decode h⟩⟩,
    fun i h => row_of_decode h, fun hnone => ?_⟩
  cases hdecode : decode op with
  | instr i =>
    obtain ⟨hmem, hrow⟩ := row_of_decode hdecode
    exact absurd hrow (hnone i.row hmem)
  | unsupported w => rw [decode_unsupported hdecode]

/-- Settles O5: each word is decoded by evaluation. -/
theorem writtenOutWordsDecode : Obligations.WrittenOutWordsDecode := by
  unfold Obligations.WrittenOutWordsDecode
  decide

end Sys2Proof
end

section
namespace Sys2Proof.Machine

open Sys2Proof.Claims

/-! ## Every instruction answers a next state -/

/-- No arm of `exec` stops (log 8): each answers the state its meaning writes out. -/
theorem exec_total (i : Instr) (s : State) : ∃ t, exec i s = .next t := by
  cases i <;> exact ⟨_, rfl⟩

/-- A step answers in each of its branches: held, no fetch, an unsupported word, an instruction (R90). -/
theorem step_total (s : State) : ∃ t, step s = .next t := by
  cases hheld : s.held with
  | true => exact ⟨_, step_held hheld⟩
  | false =>
    cases hfetch : s.fetch with
    | none => exact ⟨_, step_noFetch hheld hfetch⟩
    | some op =>
      cases hdecode : decode op with
      | unsupported w => exact ⟨_, step_unsupported hheld hfetch hdecode⟩
      | instr i =>
        obtain ⟨u, hexec⟩ := exec_total i s
        exact ⟨_, step_instr hheld hfetch hdecode hexec⟩

theorem applyEvent_total (e : Event) (s : State) : ∃ t, applyEvent e s = .next t := by
  cases e with
  | step => exact step_total s
  | tick60 | setKey | clearRedraw | loadProgram | reset => exact ⟨_, rfl⟩

/-- A schedule goes on from what its first event answers. -/
theorem runEvents_cons {e : Event} {s t : State} (es : List Event) (h : applyEvent e s = .next t) :
    runEvents (e :: es) s = runEvents es t := by
  simp [runEvents, h]

theorem runEvents_total (es : List Event) : ∀ s : State, ∃ t, runEvents es s = .next t := by
  induction es with
  | nil => exact fun s => ⟨s, rfl⟩
  | cons e es ih =>
    intro s
    obtain ⟨t, ht⟩ := applyEvent_total e s
    rw [runEvents_cons es ht]
    exact ih t

/-- Settles O11: every arm of `exec` answers next, so every event does, and a schedule by induction on its events. -/
theorem everyScheduleAnswersNext : Obligations.EveryScheduleAnswersNext := by
  unfold Obligations.EveryScheduleAnswersNext
  exact ⟨exec_total, runEvents_total⟩

/-! ## The two outcomes of the operations that can go wrong -/

/-- An access either takes its effect or raises MEM_RANGE (R63). -/
theorem State.withAccess_induction {P : State → Prop} {s : State} {n : Nat} {f : State → State}
    (hok : s.accessOk n = true → P (f s))
    (hfault : s.accessOk n = false → P (s.raise .memRange s.firstOutside)) : P (s.withAccess n f) := by
  cases h : s.accessOk n with
  | true => rw [State.withAccess_ok s n f h]; exact hok h
  | false => rw [State.withAccess_fault s n f h]; exact hfault h

theorem State.stackError_of_report {s : State} (r : Report) (c : FaultCause) (h : s.cfg.stackPolicy = .report) :
    s.stackError r c = (s.emit r).next := by
  simp [State.stackError, h]

theorem State.stackError_of_fault {s : State} (r : Report) (c : FaultCause) (h : s.cfg.stackPolicy = .fault) :
    s.stackError r c = s.raise c 0 := by
  simp [State.stackError, h]

/-- A stack error either reports and goes on or faults, by `STACK_POLICY` (R141, R143). -/
theorem State.stackError_induction {P : State → Prop} {s : State} {r : Report} {c : FaultCause}
    (hreport : s.cfg.stackPolicy = .report → P (s.emit r).next)
    (hfault : s.cfg.stackPolicy = .fault → P (s.raise c 0)) : P (s.stackError r c) := by
  cases h : s.cfg.stackPolicy with
  | report => rw [State.stackError_of_report r c h]; exact hreport h
  | fault => rw [State.stackError_of_fault r c h]; exact hfault h

theorem State.skipOnKey_of_key {s : State} {x : Reg} {k : Key} (p : Bool) (h : (s.getV x).toNat = k.val) :
    s.skipOnKey x p = s.skipIf (s.keyFlag k == p) := by
  have hk : s.keyOperand x = some k := by
    rw [State.keyOperand_some s x (by omega), Option.some.injEq]
    exact Fin.ext h
  simp [State.skipOnKey, hk]

theorem State.skipOnKey_of_noKey {s : State} {x : Reg} (p : Bool) (h : 0xF < (s.getV x).toNat) :
    s.skipOnKey x p = s.raise .keyRange (byteWord (s.getV x)) := by
  simp [State.skipOnKey, State.keyOperand_none s x h]

/-- A key skip either skips on the key V[x] names or raises KEY_RANGE (R240, R241). -/
theorem State.skipOnKey_induction {P : State → Prop} {s : State} {x : Reg} {p : Bool}
    (hkey : ∀ c, P (s.skipIf c))
    (hfault : 0xF < (s.getV x).toNat → P (s.raise .keyRange (byteWord (s.getV x)))) : P (s.skipOnKey x p) := by
  by_cases h : (s.getV x).toNat < 16
  · rw [State.skipOnKey_of_key (k := ⟨_, h⟩) p rfl]; exact hkey _
  · rw [State.skipOnKey_of_noKey p (by omega)]; exact hfault (by omega)

/-- RET pops where the stack is not empty, and is a stack error where it is (R140, R141). -/
theorem exec_ret_of_sp_eq_zero {s : State} (h : s.sp.val = 0) :
    exec .ret s = .next (s.stackError (.stackUnderflow s.pc) .stackUnderflow) :=
  congrArg Host.Outcome.next (dif_pos h)

/-- CALL pushes where the stack is not full, and is a stack error where it is (R143). -/
theorem exec_call_of_sp_ne_full {s : State} (nnn : Addr12) (h : s.sp.val ≠ 16) :
    exec (.call nnn) s = .next ((s.push s.pc h).setPc (addrWord nnn)) :=
  congrArg Host.Outcome.next (dif_neg h)

theorem exec_call_of_sp_eq_full {s : State} (nnn : Addr12) (h : s.sp.val = 16) :
    exec (.call nnn) s = .next (s.stackError (.stackOverflow s.pc) .stackOverflow) :=
  congrArg Host.Outcome.next (dif_pos h)

theorem exec_ret_induction {P : State → Prop} {s t : State} (h : exec .ret s = .next t)
    (hpop : ∀ hsp : s.sp.val ≠ 0, P ((s.pop hsp).setPc (s.stackTop hsp + 2)))
    (herror : s.sp.val = 0 → P (s.stackError (.stackUnderflow s.pc) .stackUnderflow)) : P t := by
  by_cases hsp : s.sp.val = 0
  · obtain rfl := Host.Outcome.next.inj ((exec_ret_of_sp_eq_zero hsp).symm.trans h)
    exact herror hsp
  · obtain rfl := Host.Outcome.next.inj ((exec_ret_of_sp_ne_zero hsp).symm.trans h)
    exact hpop hsp

theorem exec_call_induction {P : State → Prop} {nnn : Addr12} {s t : State} (h : exec (.call nnn) s = .next t)
    (hpush : ∀ hsp : s.sp.val ≠ 16, P ((s.push s.pc hsp).setPc (addrWord nnn)))
    (herror : s.sp.val = 16 → P (s.stackError (.stackOverflow s.pc) .stackOverflow)) : P t := by
  by_cases hsp : s.sp.val = 16
  · obtain rfl := Host.Outcome.next.inj ((exec_call_of_sp_eq_full nnn hsp).symm.trans h)
    exact herror hsp
  · obtain rfl := Host.Outcome.next.inj ((exec_call_of_sp_ne_full nnn hsp).symm.trans h)
    exact hpush hsp

end Sys2Proof.Machine
end

section
namespace Sys2Proof.Claims

open Sys2Proof.Machine

/-! ## One frame rule for each update

If `t` is `s` but for what `w` names, so is `t` after an update of something `w` names. -/

section
variable {w : Writes} {s t : State}

theorem Kept.refl (w : Writes) (s : State) : Kept w s s := by
  constructor <;> simp

theorem Kept.setPc (h : Kept w s t) (pc : Word) : Kept w s (t.setPc pc) := { h with }

theorem Kept.next (h : Kept w s t) : Kept w s t.next := h.setPc _

theorem Kept.skipIf (h : Kept w s t) (c : Bool) : Kept w s (t.skipIf c) := h.setPc _

theorem Kept.setV (h : Kept w s t) {x : Reg} (hx : x ∈ w.regs) (b : Byte) : Kept w s (t.setV x b) :=
  { h with
    regs := fun r hr => by
      have hne : x ≠ r := fun heq => hr (heq ▸ hx)
      simp [hne, h.regs r hr] }

theorem Kept.setFlag (h : Kept w s t) (hx : 0xF ∈ w.regs) (f : Bool) : Kept w s (t.setFlag f) := h.setV hx _

theorem Kept.setVFlag (h : Kept w s t) {x : Reg} (hx : x ∈ w.regs) (hF : 0xF ∈ w.regs) (b : Byte) (f : Bool) :
    Kept w s (t.setVFlag x b f) :=
  (h.setV hx b).setFlag hF f

theorem kept_loadRegs (s : State) {x : Reg} (hx : ∀ r ≤ x, r ∈ w.regs) : Kept w s (s.loadRegs x) := by
  constructor
  case regs =>
    intro r hr
    rw [State.getV_loadRegs, if_neg fun hle => hr (hx r hle)]
  all_goals simp

theorem Kept.setI (h : Kept w s t) (hi : w.i = true) (v : Word) : Kept w s (t.setI v) :=
  { h with i := by simp [hi] }

theorem Kept.advanceI (h : Kept w s t) (hi : t.cfg.loadStoreIncrementsI = true → w.i = true) (x : Reg) :
    Kept w s (t.advanceI x) := by
  unfold State.advanceI
  split
  · next hc => exact h.setI (hi hc) _
  · exact h

theorem Kept.setMem (h : Kept w s t) (hm : w.mem = true) (m : Memory) : Kept w s (t.setMem m) :=
  { h with mem := by simp [hm] }

theorem Kept.push (h : Kept w s t) (hs : w.stack = true) (v : Word) (hsp : t.sp.val ≠ 16) :
    Kept w s (t.push v hsp) :=
  { h with stack := by simp [hs] }

theorem Kept.pop (h : Kept w s t) (hs : w.stack = true) (hsp : t.sp.val ≠ 0) : Kept w s (t.pop hsp) :=
  { h with stack := by simp [hs] }

theorem Kept.setDt (h : Kept w s t) (hd : w.dt = true) (b : Byte) : Kept w s (t.setDt b) :=
  { h with dt := by simp [hd] }

theorem Kept.setSt (h : Kept w s t) (hd : w.st = true) (b : Byte) : Kept w s (t.setSt b) :=
  { h with st := by simp [hd] }

theorem Kept.showScreen (h : Kept w s t) (hd : w.screen = true) (d : Screen) : Kept w s (t.showScreen d) :=
  { h with screen := by simp [hd] }

theorem Kept.setWait (h : Kept w s t) (hw : w.wait = true) (r : Option Reg) : Kept w s (t.setWait r) :=
  { h with wait := by simp [hw] }

theorem Kept.raise (h : Kept w s t) (hf : w.fault = true) (c : FaultCause) (info : Word) :
    Kept w s (t.raise c info) :=
  { h with fault := by simp [hf] }

theorem Kept.drawn (h : Kept w s t) (hd : w.draws = true) : Kept w s t.drawn :=
  { h with draws := by simp [hd] }

theorem Kept.emit (h : Kept w s t) (hr : w.reports = true) (r : Report) : Kept w s (t.emit r) :=
  { h with reports := by simp [hr] }

/-- A stack error writes a report or F (R141, R143). -/
theorem Kept.stackError (h : Kept w s t) (hf : w.fault = true) (hr : w.reports = true) (r : Report) (c : FaultCause) :
    Kept w s (t.stackError r c) :=
  State.stackError_induction (fun _ => (h.emit hr r).next) (fun _ => h.raise hf c 0)

/-- A key skip writes F at most (R240, R241). -/
theorem Kept.skipOnKey (h : Kept w s t) (hf : w.fault = true) (x : Reg) (p : Bool) : Kept w s (t.skipOnKey x p) :=
  State.skipOnKey_induction (fun c => h.skipIf c) (fun _ => h.raise hf _ _)

/-- A checked access writes what its effect writes, or F (R63). -/
theorem Kept.withAccess (h : Kept w s t) (hf : w.fault = true) (n : Nat) {f : State → State} (hok : Kept w s (f t)) :
    Kept w s (t.withAccess n f) :=
  State.withAccess_induction (fun _ => hok) (fun _ => h.raise hf _ _)

end

/-- Each meaning is a chain of updates, all of them named by the instruction's row of `writesOf`. -/
theorem exec_kept {i : Instr} {s t : State} (hexec : exec i s = .next t) : Kept (writesOf s.cfg i) s t := by
  have h := Kept.refl (writesOf s.cfg i) s
  cases i
  case ret =>
    exact exec_ret_induction hexec (fun hsp => (h.pop rfl hsp).setPc _) (fun _ => h.stackError rfl rfl _ _)
  case call =>
    exact exec_call_induction hexec (fun hsp => (h.push rfl _ hsp).setPc _) (fun _ => h.stackError rfl rfl _ _)
  all_goals obtain rfl := Host.Outcome.next.inj hexec
  case cls => exact (h.showScreen rfl _).next
  case jp | jpV0 => exact h.setPc _
  case seVxNn | sneVxNn | seVxVy | sneVxVy => exact h.skipIf _
  case ldVxNn | addVxNn | ldVxVy | orVxVy | andVxVy | xorVxVy | ldVxDt =>
    exact (h.setV (by simp [writesOf]) _).next
  case addVxVy | sub | shr | subn | shl =>
    exact (h.setVFlag (by simp [writesOf]) (by simp [writesOf]) _ _).next
  case rnd => exact ((h.drawn rfl).setV (by simp [writesOf]) _).next
  case ldINnn | ldFVx => exact (h.setI rfl _).next
  case addIVx => exact ((h.setI rfl _).setFlag (by simp [writesOf]) _).next
  case drw =>
    exact h.withAccess rfl _ ((h.showScreen rfl _).setFlag (by simp [writesOf]) _).next
  case skp | sknp => exact h.skipOnKey rfl _ _
  case ldVxK => exact h.setWait rfl _
  case ldDtVx => exact (h.setDt rfl _).next
  case ldStVx => exact (h.setSt rfl _).next
  case ldBVx => exact h.withAccess rfl _ (h.setMem rfl _).next
  case ldMemVx => exact h.withAccess rfl _ ((h.setMem rfl (s.mem.writeBytes _ _)).advanceI id _).next
  case ldVxMem =>
    exact h.withAccess rfl _ ((kept_loadRegs s (by simp [writesOf])).advanceI id _).next

/-- Settles O19: the frame of each instruction is the chain of the frame rules of its updates. -/
theorem instructionsWriteOnlyWhatTheyName : Obligations.InstructionsWriteOnlyWhatTheyName := by
  unfold Obligations.InstructionsWriteOnlyWhatTheyName
  intro i s t hexec
  exact exec_kept hexec

end Sys2Proof.Claims
end

section
namespace Sys2Proof.Machine

open Sys2Proof.Claims

/-! ## The tick that may end a step (R90) -/

@[simp] theorem State.endStep_fault (s : State) : s.endStep.fault = s.fault := by simp [State.endStep_eq]
@[simp] theorem State.endStep_reports (s : State) : s.endStep.reports = s.reports := by simp [State.endStep_eq]

/-- A held state ends its step as it is: no tick after a fault or at the beginning of a wait (R90). -/
theorem State.endStep_of_held {s : State} (h : s.held = true) : s.endStep = s := by
  simp [State.endStep, h]

/-! ## What an instruction can fault with (R271, R272) -/

/-- `t` follows from `s` by instruction `i` without a fault, or by a fault of `i`'s row of the fault table. -/
def FaultsByTable (i : Instr) (s t : State) : Prop :=
  t.fault = s.fault ∨ ∃ cause info, t = s.raise cause info ∧ faultRow i s cause info

/-- Raising a cause whose row holds follows the table. -/
theorem FaultsByTable.of_raise {i : Instr} {s : State} {cause : FaultCause} {info : Word}
    (h : faultRow i s cause info) : FaultsByTable i s (s.raise cause info) :=
  .inr ⟨cause, info, rfl, h⟩

/-- A failed access check is the condition of MEM_RANGE, and max(I, 0x1000) its info. -/
theorem faultRow_memRange {i : Instr} {s : State} (h : s.accessOk (dataBytes i) = false) :
    faultRow i s .memRange s.firstOutside := by
  rw [← Bool.not_eq_true, State.accessOk_iff, not_or] at h
  obtain ⟨hne, hout⟩ := h
  exact ⟨hne, by omega, s.toNat_firstOutside⟩

/-- The checked accesses, where the effect itself does not fault. -/
theorem faultsByTable_withAccess {i : Instr} {s : State} {f : State → State} (hf : (f s).fault = s.fault) :
    FaultsByTable i s (s.withAccess (dataBytes i) f) :=
  State.withAccess_induction (fun _ => .inl hf) (fun hout => .of_raise (faultRow_memRange hout))

/-- The key skips, on a key or on none. -/
theorem faultsByTable_skipOnKey {i : Instr} {x : Reg} (hi : i = .skp x ∨ i = .sknp x) (s : State) (p : Bool) :
    FaultsByTable i s (s.skipOnKey x p) :=
  State.skipOnKey_induction (fun _ => .inl rfl)
    (fun hkey => .of_raise ⟨x, hi, hkey, toNat_byteWord _⟩)

@[simp] theorem State.advanceI_fault (s : State) (x : Reg) : (s.advanceI x).fault = s.fault := by
  simp [State.advanceI_eq]

/-- An instruction whose row of `writesOf` leaves F alone never faults; the other eight are the stack instructions, the
key skips and the checked accesses. -/
theorem exec_faultsByTable {i : Instr} {s t : State} (hexec : exec i s = .next t) : FaultsByTable i s t := by
  cases i
  case ret =>
    exact exec_ret_induction hexec (fun _ => .inl rfl) fun hsp =>
      State.stackError_induction (fun _ => .inl rfl) fun hpolicy => .of_raise ⟨rfl, hpolicy, hsp, rfl⟩
  case call nnn =>
    exact exec_call_induction hexec (fun _ => .inl rfl) fun hsp =>
      State.stackError_induction (fun _ => .inl rfl) fun hpolicy => .of_raise ⟨⟨nnn, rfl⟩, hpolicy, hsp, rfl⟩
  case skp x =>
    obtain rfl := Host.Outcome.next.inj hexec
    exact faultsByTable_skipOnKey (.inl rfl) s true
  case sknp x =>
    obtain rfl := Host.Outcome.next.inj hexec
    exact faultsByTable_skipOnKey (.inr rfl) s false
  case drw | ldBVx | ldMemVx | ldVxMem =>
    obtain rfl := Host.Outcome.next.inj hexec
    exact faultsByTable_withAccess (by simp)
  all_goals exact .inl ((exec_kept hexec).fault rfl)

/-- What a step that faults has done: it has raised one fault, that of the fetch or one of its instruction's. -/
theorem step_fault {s t : State} {r : FaultRecord} (hs : s.fault = none) (hstep : step s = .next t)
    (ht : t.fault = some r) :
    t = s.raise r.cause r.info ∧
      ((r.cause = .fetchRange ∧ 0xFFF < s.pc.toNat + 1 ∧ r.info = s.pc) ∨
        (s.pc.toNat + 1 ≤ 0xFFF ∧ ∃ i, decode (s.mem.wordAt s.pc.toNat) = .instr i ∧ faultRow i s r.cause r.info)) := by
  rcases step_cases hstep with ⟨-, rfl⟩ | ⟨-, hfetch, rfl⟩ | ⟨op, -, -, -, rfl⟩ |
    ⟨op, i, u, -, hfetch, hdecode, hexec, rfl⟩
  · simp [hs] at ht
  · obtain rfl := Option.some.inj ht
    exact ⟨rfl, .inl ⟨rfl, State.fetch_none hfetch, rfl⟩⟩
  · simp [State.skipUnsupported, hs] at ht
  · rw [State.endStep_fault] at ht
    rcases exec_faultsByTable hexec with hkeep | ⟨cause, info, rfl, hrow⟩
    · simp [hkeep, hs] at ht
    · obtain rfl := Option.some.inj ht
      obtain ⟨hpc, rfl⟩ := State.fetch_some hfetch
      exact ⟨State.endStep_of_held rfl, .inr ⟨hpc, i, hdecode, hrow⟩⟩

/-- Settles O15: a step that faults is one raise, which records PC and writes F alone. -/
theorem everyFaultIsPrecise : Obligations.EveryFaultIsPrecise := by
  unfold Obligations.EveryFaultIsPrecise
  intro s t r hs hstep ht
  obtain ⟨rfl, -⟩ := step_fault hs hstep ht
  have hr : (⟨r.cause, s.pc, r.info⟩ : FaultRecord) = r := Option.some.inj ht
  exact ⟨congrArg FaultRecord.pc hr.symm, by rw [← hr]; rfl⟩

/-- Settles O16: the fault raised is that of the fetch, or in the row of the fetched instruction. -/
theorem faultsFollowTheCauseTable : Obligations.FaultsFollowTheCauseTable := by
  unfold Obligations.FaultsFollowTheCauseTable
  intro s t r hs hstep ht
  exact (step_fault hs hstep ht).2

/-! ## What an instruction can report (R276, R277) -/

/-- `t` has the reports of `s`, or one more and the faults of `s`. -/
def ReportsAtMostOne (s t : State) : Prop :=
  t.reports = s.reports ∨ (∃ r, t.reports = r :: s.reports) ∧ t.fault = s.fault

theorem reportsAtMostOne_stackError (s : State) (r : Report) (c : FaultCause) :
    ReportsAtMostOne s (s.stackError r c) :=
  State.stackError_induction (fun _ => .inr ⟨⟨r, rfl⟩, rfl⟩) (fun _ => .inl rfl)

/-- Only the stack instructions report, and only on a stack error. -/
theorem exec_reportsAtMostOne {i : Instr} {s t : State} (hexec : exec i s = .next t) : ReportsAtMostOne s t := by
  cases i
  case ret => exact exec_ret_induction hexec (fun _ => .inl rfl) fun _ => reportsAtMostOne_stackError s _ _
  case call => exact exec_call_induction hexec (fun _ => .inl rfl) fun _ => reportsAtMostOne_stackError s _ _
  all_goals exact .inl ((exec_kept hexec).reports rfl)

/-- A step reports an unsupported word or what its instruction reports. -/
theorem step_reportsAtMostOne {s t : State} (hstep : step s = .next t) : ReportsAtMostOne s t := by
  rcases step_cases hstep with ⟨-, rfl⟩ | ⟨-, -, rfl⟩ | ⟨op, -, -, -, rfl⟩ | ⟨op, i, u, -, -, -, hexec, rfl⟩
  · exact .inl rfl
  · exact .inl rfl
  · refine .inr ⟨⟨.unsupportedOpcode s.pc op, ?_⟩, ?_⟩
    · rw [State.endStep_reports]; rfl
    · rw [State.endStep_fault]; rfl
  · unfold ReportsAtMostOne
    rw [State.endStep_reports, State.endStep_fault]
    exact exec_reportsAtMostOne hexec

/-- Settles O18: a step that reports does not change F. -/
theorem stepEmitsAtMostOneReportOrFault : Obligations.StepEmitsAtMostOneReportOrFault := by
  unfold Obligations.StepEmitsAtMostOneReportOrFault
  intro s t hstep
  rcases step_reportsAtMostOne hstep with hsame | ⟨hone, hfault⟩
  · exact ⟨.inl hsame, fun _ => hsame⟩
  · exact ⟨.inr hone, fun hne => absurd hfault hne⟩

end Sys2Proof.Machine
end

section
namespace Sys2Proof.Machine

/-! ## How each update keeps the invariant -/

/-- The `n + 1` bytes of a checked access lie inside the address space (R63). -/
theorem State.ea_add_le {s : State} {n : Nat} (hok : s.accessOk (n + 1) = true) : s.ea 0 + (n + 1) ≤ 4096 := by
  rw [State.accessOk_iff] at hok
  simp only [State.ea]
  omega

@[simp] theorem State.advanceI_pc (s : State) (x : Reg) : (s.advanceI x).pc = s.pc := by simp [State.advanceI_eq]

@[simp] theorem State.advanceI_held (s : State) (x : Reg) : (s.advanceI x).held = s.held := by
  rw [State.advanceI_eq]; rfl

section
variable {s t : State}

/-- The invariant speaks of memory, PC, the stack entries, W and F alone. -/
theorem State.Inv.of_eq (h : s.Inv) (hmem : t.mem = s.mem) (hpc : t.pc = s.pc)
    (hstack : ∀ j, t.stackAt j = s.stackAt j) (hwait : t.wait = s.wait) (hfault : t.fault = s.fault) : t.Inv where
  memWf := hmem ▸ h.memWf
  pcMax := hpc ▸ h.pcMax
  stackMax j := hstack j ▸ h.stackMax j
  waitPc := by rw [hwait, hpc, hfault]; exact h.waitPc
  faultPc := by rw [hpc, hfault]; exact h.faultPc

theorem State.Inv.setV (h : s.Inv) (x : Reg) (b : Byte) : (s.setV x b).Inv := h.of_eq rfl rfl (fun _ => rfl) rfl rfl

theorem State.Inv.setVFlag (h : s.Inv) (x : Reg) (b : Byte) (f : Bool) : (s.setVFlag x b f).Inv :=
  (h.setV x b).setV _ _

theorem State.Inv.loadRegs (h : s.Inv) (x : Reg) : (s.loadRegs x).Inv :=
  h.of_eq (s.loadRegs_mem x) (s.loadRegs_pc x) (s.loadRegs_stackAt x) (s.loadRegs_wait x) (s.loadRegs_fault x)

theorem State.Inv.setI (h : s.Inv) (w : Word) : (s.setI w).Inv := h.of_eq rfl rfl (fun _ => rfl) rfl rfl

theorem State.Inv.setDt (h : s.Inv) (b : Byte) : (s.setDt b).Inv := h.of_eq rfl rfl (fun _ => rfl) rfl rfl

theorem State.Inv.setSt (h : s.Inv) (b : Byte) : (s.setSt b).Inv := h.of_eq rfl rfl (fun _ => rfl) rfl rfl

theorem State.Inv.setKeyFlag (h : s.Inv) (k : Key) (p : Bool) : (s.setKeyFlag k p).Inv :=
  h.of_eq rfl rfl (fun _ => rfl) rfl rfl

theorem State.Inv.showScreen (h : s.Inv) (d : Screen) : (s.showScreen d).Inv :=
  h.of_eq rfl rfl (fun _ => rfl) rfl rfl

theorem State.Inv.clearRp (h : s.Inv) : s.clearRp.Inv := h.of_eq rfl rfl (fun _ => rfl) rfl rfl

theorem State.Inv.drawn (h : s.Inv) : s.drawn.Inv := h.of_eq rfl rfl (fun _ => rfl) rfl rfl

theorem State.Inv.emit (h : s.Inv) (r : Report) : (s.emit r).Inv := h.of_eq rfl rfl (fun _ => rfl) rfl rfl

theorem State.Inv.pop (h : s.Inv) (hsp : s.sp.val ≠ 0) : (s.pop hsp).Inv := h.of_eq rfl rfl (fun _ => rfl) rfl rfl

theorem State.Inv.advanceI (h : s.Inv) (x : Reg) : (s.advanceI x).Inv := by
  rw [State.advanceI_eq]; exact h.setI _

theorem State.Inv.tick (h : s.Inv) : s.tick.Inv := (h.setDt _).setSt _

theorem State.Inv.stepTick (h : s.Inv) : s.stepTick.Inv := by
  rw [State.stepTick_eq]; exact (h.setDt _).setSt _

theorem State.Inv.endStep (h : s.Inv) : s.endStep.Inv := by
  rw [State.endStep_eq]; exact (h.setDt _).setSt _

theorem State.Inv.setMem (h : s.Inv) {m : Memory} (hm : m.wf = true) : (s.setMem m).Inv where
  memWf := hm
  pcMax := h.pcMax
  stackMax := h.stackMax
  waitPc := h.waitPc
  faultPc := h.faultPc

/-- Only a state that is neither faulted nor waiting may move PC, and only up to 0x10FE (R26). -/
theorem State.Inv.setPc (h : s.Inv) (hheld : s.held = false) {w : Word} (hw : w.toNat ≤ 0x10FE) :
    (s.setPc w).Inv := by
  obtain ⟨hfault, hwait⟩ := s.held_eq_false.mp hheld
  exact { memWf := h.memWf, pcMax := hw, stackMax := h.stackMax, waitPc := fun hne => absurd hwait hne,
          faultPc := fun r hr => by simp [hfault] at hr }

theorem State.Inv.push (h : s.Inv) {w : Word} (hw : w.toNat ≤ 0xFFE) (hsp : s.sp.val ≠ 16) : (s.push w hsp).Inv where
  memWf := h.memWf
  pcMax := h.pcMax
  stackMax j := by
    rw [State.stackAt_push]
    split
    · exact hw
    · exact h.stackMax j
  waitPc := h.waitPc
  faultPc := h.faultPc

theorem State.Inv.raise (h : s.Inv) (hwait : s.wait = none) (c : FaultCause) (info : Word) : (s.raise c info).Inv where
  memWf := h.memWf
  pcMax := h.pcMax
  stackMax := h.stackMax
  waitPc hne := absurd hwait hne
  faultPc r hr := by obtain rfl := Option.some.inj hr; rfl

/-- A wait may begin where a fetch was possible and no fault is recorded, and may end anywhere. -/
theorem State.Inv.setWait (h : s.Inv) {w : Option Reg} (hw : w ≠ none → s.pc.toNat ≤ 0xFFE ∧ s.fault = none) :
    (s.setWait w).Inv where
  memWf := h.memWf
  pcMax := h.pcMax
  stackMax := h.stackMax
  waitPc := hw
  faultPc := h.faultPc

/-- The skips and "next" of a PC that can be fetched stay far below 0x10FE. -/
theorem State.Inv.next (h : s.Inv) (hheld : s.held = false) (hpc : s.pc.toNat ≤ 0xFFE) : s.next.Inv :=
  h.setPc hheld (by rw [BitVec.toNat_add]; simp; omega)

theorem State.Inv.skipIf (h : s.Inv) (hheld : s.held = false) (hpc : s.pc.toNat ≤ 0xFFE) (c : Bool) :
    (s.skipIf c).Inv := by
  cases c
  · exact h.next hheld hpc
  · exact h.setPc hheld (by simp; omega)

theorem State.Inv.stackError (h : s.Inv) (hheld : s.held = false) (hpc : s.pc.toNat ≤ 0xFFE) (r : Report)
    (c : FaultCause) : (s.stackError r c).Inv :=
  State.stackError_induction (fun _ => (h.emit r).next hheld hpc)
    (fun _ => h.raise (s.held_eq_false.mp hheld).2 _ _)

theorem State.Inv.skipOnKey (h : s.Inv) (hheld : s.held = false) (hpc : s.pc.toNat ≤ 0xFFE) (x : Reg) (p : Bool) :
    (s.skipOnKey x p).Inv :=
  State.skipOnKey_induction (h.skipIf hheld hpc) (fun _ => h.raise (s.held_eq_false.mp hheld).2 _ _)

theorem State.Inv.withAccess (h : s.Inv) (hheld : s.held = false) {n : Nat} {f : State → State}
    (hok : s.accessOk n = true → (f s).Inv) : (s.withAccess n f).Inv :=
  State.withAccess_induction hok (fun _ => h.raise (s.held_eq_false.mp hheld).2 _ _)

/-- Storing the `n` bytes of a checked access keeps memory canonical (log 4). -/
theorem State.Inv.storeBytes (h : s.Inv) {n : Nat} (hok : s.accessOk (n + 1) = true) {l : List Byte}
    (hl : l.length = n + 1) : (s.setMem (s.mem.writeBytes (s.ea 0) l)).Inv :=
  h.setMem (Memory.wf_writeBytes l _ _ (by rw [hl]; exact State.ea_add_le hok) h.memWf)

end

/-- Every PC an instruction writes is at most 0x10FE, and CALL pushes the PC it was fetched at. -/
theorem exec_keeps_inv {i : Instr} {s t : State} (h : s.Inv) (hheld : s.held = false) (hpc : s.pc.toNat ≤ 0xFFE)
    (hexec : exec i s = .next t) : t.Inv := by
  cases i
  case ret =>
    refine exec_ret_induction hexec (fun hsp => (h.pop hsp).setPc hheld ?_) fun _ => h.stackError hheld hpc _ _
    have htop : (s.stackTop hsp).toNat ≤ 0xFFE := h.stackMax _
    simp; omega
  case call nnn =>
    refine exec_call_induction hexec (fun hsp => (h.push hpc hsp).setPc hheld ?_) fun _ => h.stackError hheld hpc _ _
    rw [toNat_addrWord]; omega
  all_goals obtain rfl := Host.Outcome.next.inj hexec
  case cls => exact (h.showScreen _).next hheld hpc
  case jp nnn => exact h.setPc hheld (by rw [toNat_addrWord]; omega)
  case jpV0 nnn => exact h.setPc hheld (by rw [toNat_addrWord_add_byteWord]; omega)
  case seVxNn | sneVxNn | seVxVy | sneVxVy => exact h.skipIf hheld hpc _
  case ldVxNn | addVxNn | ldVxVy | orVxVy | andVxVy | xorVxVy | ldVxDt => exact (h.setV _ _).next hheld hpc
  case addVxVy | sub | shr | subn | shl => exact (h.setVFlag _ _ _).next hheld hpc
  case rnd => exact (h.drawn.setV _ _).next hheld hpc
  case ldINnn | ldFVx => exact (h.setI _).next hheld hpc
  case addIVx => exact ((h.setI _).setV _ _).next hheld hpc
  case drw => exact h.withAccess hheld fun _ => ((h.showScreen _).setV _ _).next hheld hpc
  case skp | sknp => exact h.skipOnKey hheld hpc _ _
  case ldVxK => exact h.setWait fun _ => ⟨hpc, (s.held_eq_false.mp hheld).1⟩
  case ldDtVx => exact (h.setDt _).next hheld hpc
  case ldStVx => exact (h.setSt _).next hheld hpc
  case ldBVx => exact h.withAccess hheld fun hok => (h.storeBytes hok (length_decimalDigits _)).next hheld hpc
  case ldMemVx =>
    refine h.withAccess hheld fun hok => ((h.storeBytes hok (s.length_regsUpTo _)).advanceI _).next ?_ ?_
    · rw [State.advanceI_held]; exact hheld
    · rw [State.advanceI_pc]; exact hpc
  case ldVxMem =>
    refine h.withAccess hheld fun _ => ((h.loadRegs _).advanceI _).next ?_ ?_
    · rw [State.advanceI_held]; exact hheld
    · rw [State.advanceI_pc]; exact hpc

/-- Settles O13: of the four ways a step answers, one keeps the state, one raises, one skips, and one runs an instruction
at a PC that could be fetched. -/
theorem stepKeepsInv : Obligations.StepKeepsInv := by
  unfold Obligations.StepKeepsInv
  intro s t h hstep
  rcases step_cases hstep with ⟨-, rfl⟩ | ⟨hheld, -, rfl⟩ | ⟨op, hheld, hfetch, -, rfl⟩ |
    ⟨op, i, u, hheld, hfetch, -, hexec, rfl⟩
  · exact h
  · exact h.raise (s.held_eq_false.mp hheld).2 _ _
  · obtain ⟨hpc, -⟩ := State.fetch_some hfetch
    exact ((h.emit _).next hheld (Nat.le_of_succ_le_succ hpc)).endStep
  · obtain ⟨hpc, -⟩ := State.fetch_some hfetch
    exact (exec_keeps_inv h hheld (Nat.le_of_succ_le_succ hpc) hexec).endStep

/-! ## Creation and schedules -/

theorem State.resetWith_inv (p : Params) : (State.resetWith p).Inv where
  memWf := State.resetWith_mem_wf p
  pcMax := show (0x200 : Word).toNat ≤ 0x10FE by decide
  stackMax j := by simp [State.resetWith, State.reset, State.stackAt]
  waitPc hne := absurd rfl hne
  faultPc r hr := by cases hr

/-- Bytes that equal what their addresses read as unlisted are not written down (log 4). -/
theorem Memory.writeBytes_base : ∀ (l : List Byte) (a : Nat),
    (∀ k (hk : k < l.length), l[k] = Memory.base (a + k)) → Memory.writeBytes [] a l = []
  | [], _, _ => rfl
  | b :: l, a, h => by
    have hb : b = Memory.base a := h 0 (by simp)
    have hwrite : Memory.write [] a b = [] := by simp [Memory.write, Memory.consCell, hb]
    rw [Memory.writeBytes, hwrite]
    refine Memory.writeBytes_base l (a + 1) fun k hk => ?_
    rw [Nat.add_assoc, Nat.add_comm 1]
    exact h (k + 1) (by simpa using hk)

/-- The default font is what memory reads as unlisted, so copying it leaves the empty list. -/
theorem State.resetWith_defaultParams : State.resetWith defaultParams = State.reset := by
  have hfont : Memory.writeBytes [] 0 defaultFont.toList = [] := by
    refine Memory.writeBytes_base _ 0 fun k hk => ?_
    have hk80 : k < 80 := by simpa using hk
    simp [Memory.base, hk80]
  rw [State.resetWith, show defaultParams.font = defaultFont from rfl, hfont]
  rfl

/-- Settles O12: memory is canonical by the laws of memory, and the rest of the invariant is about fixed values. -/
theorem creationStatesSatisfyInv : Obligations.CreationStatesSatisfyInv := by
  unfold Obligations.CreationStatesSatisfyInv
  exact ⟨State.resetWith_inv, State.resetWith_defaultParams,
    State.resetWith_defaultParams ▸ State.resetWith_inv defaultParams⟩

theorem State.Inv.completeWait {s : State} (h : s.Inv) {x y : Reg} (hwait : s.wait = some y) (k : Key) :
    (s.completeWait x k).Inv := by
  obtain ⟨hpc, hfault⟩ := h.waitPc (by simp [hwait])
  have hend : ((s.setV x (natByte k.val)).setWait none).Inv := (h.setV x _).setWait fun hne => absurd rfl hne
  exact (hend.next ((State.held_eq_false _).mpr ⟨hfault, rfl⟩) hpc).stepTick

theorem State.Inv.setKey {s : State} (h : s.Inv) (k : Key) (p : Bool) : (s.setKey k p).Inv := by
  unfold State.setKey
  split
  · next hwait =>
    split
    · exact (h.setKeyFlag k p).completeWait hwait k
    · exact h.setKeyFlag k p
  · exact h.setKeyFlag k p

theorem State.Inv.tick60 {s : State} (h : s.Inv) : s.tick60.Inv := by
  unfold State.tick60
  split
  · exact h.tick
  · exact h

theorem State.Inv.loadProgram {s : State} (h : s.Inv) (b : List Byte) : (s.loadProgram b).2.Inv := by
  unfold State.loadProgram
  split
  · next hok =>
    have hlen : b.length ≤ 3584 := of_decide_eq_true hok
    exact h.setMem (Memory.wf_writeBytes b _ _ (by simp only [progBase]; omega) h.memWf)
  · exact h

/-- Creation again, but for fields the invariant does not speak of. -/
theorem State.resetEvent_inv (s : State) : s.resetEvent.Inv :=
  (State.resetWith_inv s.cfg).of_eq rfl rfl (fun _ => rfl) rfl rfl

theorem applyEvent_keeps_inv {e : Event} {s t : State} (h : s.Inv) (he : applyEvent e s = .next t) : t.Inv := by
  cases e with
  | step => exact stepKeepsInv s t h he
  | tick60 => obtain rfl := Host.Outcome.next.inj he; exact h.tick60
  | setKey k p => obtain rfl := Host.Outcome.next.inj he; exact h.setKey k p
  | clearRedraw => obtain rfl := Host.Outcome.next.inj he; exact h.clearRp
  | loadProgram b => obtain rfl := Host.Outcome.next.inj he; exact h.loadProgram b
  | reset => obtain rfl := Host.Outcome.next.inj he; exact s.resetEvent_inv

theorem runEvents_keeps_inv (es : List Event) : ∀ {s t : State}, s.Inv → runEvents es s = .next t → t.Inv := by
  induction es with
  | nil => intro s t h hrun; obtain rfl := Host.Outcome.next.inj hrun; exact h
  | cons e es ih =>
    intro s t h hrun
    obtain ⟨u, hu⟩ := applyEvent_total e s
    rw [runEvents_cons es hu] at hrun
    exact ih (applyEvent_keeps_inv h hu) hrun

/-- Settles O14: creation has the invariant and every event keeps it. -/
theorem reachableStatesSatisfyInv : Obligations.ReachableStatesSatisfyInv := by
  unfold Obligations.ReachableStatesSatisfyInv
  rintro s ⟨p, es, hrun⟩
  exact runEvents_keeps_inv es (State.resetWith_inv p) hrun

end Sys2Proof.Machine
end

section
namespace Sys2Proof.Machine

open Sys2Proof.Claims

/-! ## The instruction cycle (R90 to R92) -/

/-- The tick that ends a step, by the fields its condition reads. -/
theorem State.endStep_eq_ite (s : State) :
    s.endStep = if s.cfg.timerMode = .perStep ∧ s.fault = none ∧ s.wait = none then s.tick else s := by
  by_cases hmode : s.cfg.timerMode = .perStep
  · cases hheld : s.held with
    | true =>
      have hnot : ¬ (s.fault = none ∧ s.wait = none) := by simp [← State.held_eq_false, hheld]
      rw [State.endStep_of_held hheld, if_neg fun h => hnot h.2]
    | false => rw [State.endStep_of_perStep hmode hheld, if_pos ⟨hmode, s.held_eq_false.mp hheld⟩]
  · simp [State.endStep, State.stepTick, hmode]

/-- Settles O7: the fetch gives the word of the bytes at PC, and the instruction it decodes to runs before the tick. -/
theorem stepRunsTheDecodedInstruction : Obligations.StepRunsTheDecodedInstruction := by
  unfold Obligations.StepRunsTheDecodedInstruction
  intro s i hfault hwait hpc hdecode
  obtain ⟨t, hexec⟩ := exec_total i s
  rw [step_instr (s.held_eq_false.mpr ⟨hfault, hwait⟩) (s.fetch_eq_some hpc) hdecode hexec, hexec]
  exact congrArg Host.Outcome.next t.endStep_eq_ite

/-- Settles O9: the step is the raise of a fetch that is not possible. -/
theorem fetchBeyondMemoryFaults : Obligations.FetchBeyondMemoryFaults := by
  unfold Obligations.FetchBeyondMemoryFaults
  intro s hfault hwait hpc
  exact step_noFetch (s.held_eq_false.mpr ⟨hfault, hwait⟩) (s.fetch_eq_none hpc)

/-- Settles O10: faulted or waiting is what `held` says. -/
theorem heldStepChangesNothing : Obligations.HeldStepChangesNothing := by
  unfold Obligations.HeldStepChangesNothing
  intro s h
  exact step_held (s.held_eq_true.mpr h)

/-! ## Final states (R306) -/

/-- A final state is faulted, or its fetched word is a jump to PC. -/
theorem State.final_cases {s : State} (h : s.final = true) :
    s.fault ≠ none ∨ ∃ op nnn, s.fetch = some op ∧ decode op = .instr (.jp nnn) ∧ addrWord nnn = s.pc := by
  unfold State.final at h
  rcases Bool.or_eq_true_iff.mp h with hfault | hjump
  · exact .inl (Option.isSome_iff_ne_none.mp hfault)
  · split at hjump
    · next op hfetch =>
      split at hjump
      · next nnn hdecode => exact .inr ⟨op, nnn, hfetch, hdecode, beq_iff_eq.mp hjump⟩
      · cases hjump
    · cases hjump

/-- A step of a final state is at most a tick: a held one changes nothing, and a jump to itself writes PC with PC. -/
theorem step_final {s : State} (h : s.final = true) : step s = .next s.endStep := by
  cases hheld : s.held with
  | true => rw [step_held hheld, State.endStep_of_held hheld]
  | false =>
    obtain ⟨hfault, -⟩ := s.held_eq_false.mp hheld
    rcases State.final_cases h with hfaulted | ⟨op, nnn, hfetch, hdecode, hpc⟩
    · exact absurd hfault hfaulted
    · rw [step_instr hheld hfetch hdecode (exec_jp nnn s), hpc]
      rfl

/-- Settles O21: the step only ticks, and neither `final` nor the frame speaks of the timers. -/
theorem finalStatesStayFinal : Obligations.FinalStatesStayFinal := by
  unfold Obligations.FinalStatesStayFinal
  intro s h
  refine ⟨s.endStep, step_final h, ?_⟩
  rw [State.endStep_eq]
  exact ⟨h, rfl, kept_setDt_setSt s _ _⟩

/-! ## The reset event (R300, R274) -/

/-! No event but reset writes F. -/

@[simp] theorem State.stepTick_fault (s : State) : s.stepTick.fault = s.fault := by rw [State.stepTick_eq]; rfl

theorem State.completeWait_fault (s : State) (x : Reg) (k : Key) : (s.completeWait x k).fault = s.fault :=
  State.stepTick_fault _

theorem State.setKey_fault (s : State) (k : Key) (p : Bool) : (s.setKey k p).fault = s.fault := by
  unfold State.setKey
  split
  · split
    · exact State.completeWait_fault _ _ _
    · rfl
  · rfl

theorem State.tick60_fault (s : State) : s.tick60.fault = s.fault := by
  unfold State.tick60; split <;> rfl

theorem State.loadProgram_fault (s : State) (b : List Byte) : (s.loadProgram b).2.fault = s.fault := by
  unfold State.loadProgram; split <;> rfl

/-- Settles O17: reset writes F with none; a faulted core steps to itself, and the other events do not write F. -/
theorem onlyResetClearsFault : Obligations.OnlyResetClearsFault := by
  unfold Obligations.OnlyResetClearsFault
  intro e s t r hfault he
  have hheld : s.held = true := s.held_eq_true.mpr (.inl (by simp [hfault]))
  cases e with
  | reset => obtain rfl := Host.Outcome.next.inj he; exact .inl ⟨rfl, rfl⟩
  | step =>
    obtain rfl := Host.Outcome.next.inj ((step_held hheld).symm.trans he)
    exact .inr ⟨nofun, hfault⟩
  | tick60 => obtain rfl := Host.Outcome.next.inj he; exact .inr ⟨nofun, s.tick60_fault.trans hfault⟩
  | setKey k p => obtain rfl := Host.Outcome.next.inj he; exact .inr ⟨nofun, (s.setKey_fault k p).trans hfault⟩
  | clearRedraw => obtain rfl := Host.Outcome.next.inj he; exact .inr ⟨nofun, hfault⟩
  | loadProgram b => obtain rfl := Host.Outcome.next.inj he; exact .inr ⟨nofun, (s.loadProgram_fault b).trans hfault⟩

/-- Memory at creation: the font of the parameters below 0x050, zero above (R34). -/
theorem State.resetWith_read (p : Params) (a : Nat) :
    (State.resetWith p).mem.read a = if h : a < 80 then p.font[a] else 0 := by
  have hread := Memory.read_writeBytes p.font.toList [] 0 a (by simp) rfl
  simp only [State.resetWith, hread]
  by_cases h : a < 80 <;> simp [h, Memory.read, Memory.base]

/-- Settles O60: memory is that of creation, and every other component is a written-out zero. -/
theorem resetEventRestoresCreation : Obligations.ResetEventRestoresCreation := by
  unfold Obligations.ResetEventRestoresCreation
  intro s
  refine ⟨s.resetEvent, rfl, fun j hj => ?font, fun a ha => ?zero, fun r => ?regs, rfl, rfl, rfl, fun j => ?stack,
    rfl, rfl, fun k => ?keys, fun px py => ?pixels, rfl, rfl, rfl, rfl⟩
  case font => exact (State.resetWith_read s.cfg j).trans (dif_pos hj)
  case zero => exact (State.resetWith_read s.cfg a).trans (dif_neg (by omega))
  case regs => simp [State.resetEvent, State.resetWith, State.reset, State.getV]
  case stack => simp [State.resetEvent, State.resetWith, State.reset, State.stackAt]
  case keys => simp [State.resetEvent, State.resetWith, State.reset, State.keyFlag]
  case pixels => exact Screen.pixel_clear px py

/-! ## Ticks of the host (R291) -/

/-- Settles O57: under `external_tick` the event is the tick, and under `per_step` it is nothing. -/
theorem tickEventFollowsTimerMode : Obligations.TickEventFollowsTimerMode := by
  unfold Obligations.TickEventFollowsTimerMode
  intro s t he
  obtain rfl := Host.Outcome.next.inj he
  refine ⟨fun hmode => ?_, fun hmode => ?_⟩
  · have htick : s.tick60 = s.tick := by simp only [State.tick60, hmode]
    rw [htick]
    exact ⟨rfl, toNat_countDown _, toNat_countDown _⟩
  · simp only [State.tick60, hmode]

end Sys2Proof.Machine
end

section
namespace Sys2Proof.Machine

open Sys2Proof.Claims

/-! ## Copies and logic (R172 to R175 of 42_alu.md) -/

/-- What every write of one register and next does to the bits of that register. -/
theorem State.setV_next_bits (s : State) (x : Reg) {b : Byte} {p : Nat → Bool} (hb : ∀ j, b.getLsbD j = p j) :
    (∀ j, ((s.setV x b).next.getV x).getLsbD j = p j) ∧ (s.setV x b).next.pc = s.pc + 2 ∧
      Kept { regs := [x] } s (s.setV x b).next := by
  obtain ⟨hreg, hrest⟩ := s.setV_next_spec x b
  exact ⟨fun j => by rw [hreg, hb j], hrest⟩

/-- Settles O36: each form is one register write, of V[y] or of a bitwise operation, and then next. -/
theorem copyAndLogic : Obligations.CopyAndLogic := by
  unfold Obligations.CopyAndLogic
  intro x y s
  exact ⟨⟨_, rfl, s.setV_next_spec x (s.getV y)⟩,
    ⟨_, rfl, s.setV_next_bits x fun _ => BitVec.getLsbD_or⟩,
    ⟨_, rfl, s.setV_next_bits x fun _ => BitVec.getLsbD_and⟩,
    ⟨_, rfl, s.setV_next_bits x fun _ => BitVec.getLsbD_xor⟩⟩

/-! ## Arithmetic with a flag (R176 to R180) -/

/-- What every write of a result, then its flag, and next does (D15): VF holds the flag even where the result went there. -/
theorem State.setVFlag_next_spec (s : State) (x : Reg) (b : Byte) (f : Bool) :
    (x ≠ 0xF → (s.setVFlag x b f).next.getV x = b) ∧ (s.setVFlag x b f).next.getV 0xF = flagByte f ∧
      (s.setVFlag x b f).next.pc = s.pc + 2 ∧ Kept { regs := [x, 0xF] } s (s.setVFlag x b f).next := by
  refine ⟨fun hx => ?_, ?_, rfl, ((Kept.refl _ s).setVFlag (by simp) (by simp) b f).next⟩
  · simp [Ne.symm hx]
  · simp

/-- A flag as two implications, for a condition `P` and one `Q` that excludes it. -/
theorem flagByte_spec {f : Bool} {P Q : Prop} (hP : f = true ↔ P) (hQ : Q → ¬ P) :
    (P → flagByte f = 1) ∧ (Q → flagByte f = 0) := by
  refine ⟨fun h => ?_, fun h => ?_⟩
  · rw [hP.mpr h, flagByte_true]
  · rw [Bool.eq_false_iff.mpr fun hf => hQ h (hP.mp hf), flagByte_false]

/-- Settles O37: the result is a byte sum, and the flag says whether the exact sum is above 255. -/
theorem addSetsCarry : Obligations.AddSetsCarry := by
  unfold Obligations.AddSetsCarry
  intro x y s
  obtain ⟨hreg, hflag, hpc, hkept⟩ := s.setVFlag_next_spec x (s.getV x + s.getV y) (carryFlag (s.getV x) (s.getV y))
  obtain ⟨hone, hzero⟩ := flagByte_spec (carryFlag_iff (s.getV x) (s.getV y)) Nat.not_lt_of_le
  refine ⟨_, rfl, fun hx => ?_, fun h => hflag.trans (hone h), fun h => hflag.trans (hzero h), hpc, hkept⟩
  rw [hreg hx, BitVec.toNat_add]

/-- A byte difference, with the modulus added to the minuend. -/
theorem toNat_byte_sub (a b : Byte) : (a - b).toNat = (a.toNat + 256 - b.toNat) % 256 := by
  rw [BitVec.toNat_sub]; omega

/-- What both subtractions do (R177, R179): `b` is taken from `a` into V[x], and VF is NOT borrow. -/
theorem State.setVFlag_sub_next_spec (s : State) (x : Reg) (a b : Byte) :
    let t := (s.setVFlag x (a - b) (noBorrowFlag a b)).next
    (x ≠ 0xF → (t.getV x).toNat = (a.toNat + 256 - b.toNat) % 256) ∧
      (b.toNat ≤ a.toNat → t.getV 0xF = 1) ∧ (a.toNat < b.toNat → t.getV 0xF = 0) ∧
      t.pc = s.pc + 2 ∧ Kept { regs := [x, 0xF] } s t := by
  obtain ⟨hreg, hflag, hpc, hkept⟩ := s.setVFlag_next_spec x (a - b) (noBorrowFlag a b)
  obtain ⟨hone, hzero⟩ := flagByte_spec (noBorrowFlag_iff a b) Nat.not_le_of_lt
  refine ⟨fun hx => ?_, fun h => hflag.trans (hone h), fun h => hflag.trans (hzero h), hpc, hkept⟩
  rw [hreg hx, toNat_byte_sub]

/-- Settles O38: the two subtractions are one operation, with the operands in either order. -/
theorem subtractionsSetNoBorrow : Obligations.SubtractionsSetNoBorrow := by
  unfold Obligations.SubtractionsSetNoBorrow
  intro x y s
  exact ⟨⟨_, rfl, s.setVFlag_sub_next_spec x (s.getV x) (s.getV y)⟩,
    ⟨_, rfl, s.setVFlag_sub_next_spec x (s.getV y) (s.getV x)⟩⟩

/-- The operand of a shift is the register that `SHIFT_SOURCE` names (D13). -/
theorem State.shiftOperand_eq (s : State) (x y : Reg) : s.shiftOperand x y = s.getV (shiftedReg s x y) := by
  unfold State.shiftOperand shiftedReg
  cases s.cfg.shiftSource <;> rfl

theorem toNat_flagByte (f : Bool) : (flagByte f).toNat = f.toNat := by cases f <;> rfl

/-- The bit 8XY6 shifts out is the remainder of the halving. -/
theorem toNat_flagByte_shrFlag (b : Byte) : (flagByte (shrFlag b)).toNat = b.toNat % 2 := by
  rw [toNat_flagByte, shrFlag, BitVec.getLsbD, Nat.toNat_testBit]; simp

/-- The bit 8XYE shifts out is the carry of the doubling. -/
theorem toNat_flagByte_shlFlag (b : Byte) : (flagByte (shlFlag b)).toNat = b.toNat / 128 := by
  rw [toNat_flagByte, shlFlag, BitVec.getLsbD, Nat.toNat_testBit]; omega

/-- Settles O39: the result is the operand shifted by one, and the flag is the bit that leaves it. -/
theorem shiftsPutTheLostBitInVf : Obligations.ShiftsPutTheLostBitInVf := by
  unfold Obligations.ShiftsPutTheLostBitInVf
  intro x y s
  rw [← s.shiftOperand_eq x y]
  refine ⟨⟨_, rfl, ?shr⟩, ⟨_, rfl, ?shl⟩⟩
  case shr =>
    obtain ⟨hreg, hflag, hpc, hkept⟩ :=
      s.setVFlag_next_spec x (s.shiftOperand x y >>> 1) (shrFlag (s.shiftOperand x y))
    refine ⟨fun hx => ?_, ?_, hpc, hkept⟩
    · rw [hreg hx, BitVec.toNat_ushiftRight, Nat.shiftRight_eq_div_pow]
    · rw [hflag, toNat_flagByte_shrFlag]
  case shl =>
    obtain ⟨hreg, hflag, hpc, hkept⟩ :=
      s.setVFlag_next_spec x (s.shiftOperand x y <<< 1) (shlFlag (s.shiftOperand x y))
    refine ⟨fun hx => ?_, ?_, hpc, hkept⟩
    · rw [hreg hx, BitVec.toNat_shiftLeft, Nat.shiftLeft_eq]
    · rw [hflag, toNat_flagByte_shlFlag]

/-- Settles O40: one draw, then one register write of the masked byte, and then next. -/
theorem rndMasksAFreeByte : Obligations.RndMasksAFreeByte := by
  unfold Obligations.RndMasksAFreeByte
  intro x nn s
  obtain ⟨hreg, hpc, -⟩ := s.drawn.setV_next_spec x (Config.rand8 s.draws &&& nn)
  refine ⟨_, _, rfl, rfl, fun j => ?_, fun hnn => ?_, fun hnn => ?_, Nat.lt_succ_self _, hpc,
    (((Kept.refl _ s).drawn rfl).setV (by simp) _).next⟩
  · exact hreg ▸ BitVec.getLsbD_and
  · subst hnn; exact hreg.trans BitVec.and_zero
  · subst hnn; exact hreg.trans BitVec.and_allOnes

/-- Settles O42: I takes the sum modulo 65536, and the flag says whether the exact sum is above 0xFFF. -/
theorem addIndexFlagsRange : Obligations.AddIndexFlagsRange := by
  unfold Obligations.AddIndexFlagsRange
  intro x s
  obtain ⟨hone, hzero⟩ := flagByte_spec (rangeFlag_iff s.i (s.getV x)) Nat.not_lt_of_le
  refine ⟨_, rfl, ?_, ?_, ?_, rfl, (((Kept.refl _ s).setI rfl _).setFlag (by simp) _).next⟩
  · simp
  · simpa using hone
  · simpa using hzero

end Sys2Proof.Machine
end

section
namespace Sys2Proof.Machine

open Sys2Proof.Claims

/-! ## The draw of DXYN (R121 to R123 of 40_display.md) -/

/-- The display and the collision of the draw of DXYN. -/
def State.drwCanvas (s : State) (x y : Reg) (n : Fin 16) : Canvas :=
  s.sprite (s.getV x) (s.getV y) (s.mem.readBytes (s.ea 0) n.val)

/-- DRW where its bytes exist: the display, then the flag, then next. -/
theorem exec_drw_of_ok (x y : Reg) {n : Fin 16} {s : State} (h : n.val = 0 ∨ s.i.toNat + (n.val - 1) ≤ 0xFFF) :
    exec (.drw x y n) s =
      .next ((s.showScreen (s.drwCanvas x y n).screen).setFlag (s.drwCanvas x y n).hit).next :=
  congrArg Host.Outcome.next (State.withAccess_ok s n.val _ ((s.accessOk_iff n.val).mpr h))

theorem place_wrap_eq_some (cx cy : Nat) (px : Fin 64) (py : Fin 32) :
    place .wrap cx cy = some (px, py) ↔ px.val = cx % 64 ∧ py.val = cy % 32 := by
  simp [place, Fin.ext_iff, eq_comm]

theorem place_clip_eq_some (cx cy : Nat) (px : Fin 64) (py : Fin 32) :
    place .clip cx cy = some (px, py) ↔ px.val = cx ∧ py.val = cy := by
  simp only [place]
  split
  · simp [Fin.ext_iff, eq_comm]
  · simp only [reduceCtorEq, false_iff]
    omega

/-- The targets of a draw are the pixels the sprite covers. -/
theorem mem_spriteTargets_iff (s : State) (x y : Reg) (n : Nat) (px : Fin 64) (py : Fin 32) :
    (px, py) ∈ spriteTargets s.cfg.spriteEdge
        (spriteBits (s.getV x).toNat (s.getV y).toNat (s.mem.readBytes (s.ea 0) n)) ↔
      spriteCovers s x y n px py := by
  simp only [spriteTargets, List.mem_filterMap, mem_spriteBits, spriteCovers, Memory.length_readBytes,
    Memory.getElem_readBytes, State.ea, Nat.add_zero]
  constructor
  · rintro ⟨_, ⟨r, hr, col, hcol, hbit, rfl⟩, hplace⟩
    refine ⟨r, hr, col, hcol, hbit, ?_⟩
    cases hedge : s.cfg.spriteEdge with
    | wrap => rw [hedge] at hplace; exact (place_wrap_eq_some _ _ _ _).mp hplace
    | clip => rw [hedge] at hplace; exact (place_clip_eq_some _ _ _ _).mp hplace
  · rintro ⟨r, hr, col, hcol, hbit, hplace⟩
    refine ⟨_, ⟨r, hr, col, hcol, hbit, rfl⟩, ?_⟩
    cases hedge : s.cfg.spriteEdge with
    | wrap => rw [hedge] at hplace; exact (place_wrap_eq_some _ _ _ _).mpr hplace
    | clip => rw [hedge] at hplace; exact (place_clip_eq_some _ _ _ _).mpr hplace

/-- A draw XORs the pixels the sprite covers, and says whether one of them was set: no pixel is hit twice, for a sprite
is at most 15 rows high. -/
theorem State.drwCanvas_spec (s : State) (x y : Reg) (n : Fin 16) :
    (∀ px py, (s.drwCanvas x y n).screen.pixel px py = true ↔
      ¬ (s.display.pixel px py = true ↔ spriteCovers s x y n.val px py)) ∧
    ((s.drwCanvas x y n).hit = true ↔
      ∃ px py, spriteCovers s x y n.val px py ∧ s.display.pixel px py = true) := by
  have hrows : (s.mem.readBytes (s.ea 0) n.val).length < 16 := by rw [Memory.length_readBytes]; exact n.isLt
  obtain ⟨hpixel, hhit⟩ := Canvas.drawAll_spec s.cfg.spriteEdge _ ⟨s.display, false⟩
    (spriteTargets_nodup s.cfg.spriteEdge (s.getV x).toNat (s.getV y).toNat _ hrows)
  constructor
  · intro px py
    rw [← mem_spriteTargets_iff, State.drwCanvas, State.sprite, hpixel px py]
    cases s.display.pixel px py <;> simp
  · refine hhit.trans ?_
    simp only [mem_spriteTargets_iff, Bool.false_eq_true, false_or]

/-- Settles O23: the state after the draw is three writes, of the canvas, of its hit and of PC. -/
theorem drwXorsTheSpriteAndReportsCollision : Obligations.DrwXorsTheSpriteAndReportsCollision := by
  unfold Obligations.DrwXorsTheSpriteAndReportsCollision
  intro x y n s haccess
  obtain ⟨hpixel, hhit⟩ := s.drwCanvas_spec x y n
  obtain ⟨hone, hzero⟩ := flagByte_spec hhit id
  refine ⟨_, exec_drw_of_ok x y haccess, hpixel, ?_, ?_, rfl, rfl,
    (((Kept.refl _ s).showScreen rfl _).setFlag (by simp) _).next⟩
  · simpa using hone
  · simpa using hzero

/-- What a sprite covers depends on the bytes at I, on the two coordinates and on the edge policy alone. -/
theorem spriteCovers_congr {s t : State} {x y : Reg} (hmem : ∀ a, t.mem.read a = s.mem.read a) (hi : t.i = s.i)
    (hcfg : t.cfg = s.cfg) (hx : t.getV x = s.getV x) (hy : t.getV y = s.getV y) (n : Nat) (px : Fin 64)
    (py : Fin 32) : spriteCovers t x y n px py ↔ spriteCovers s x y n px py := by
  simp only [spriteCovers, hmem, hi, hcfg, hx, hy]

/-- Settles O24: the second draw has the cover of the first, so it XORs each pixel twice, and it clears a pixel exactly
where the first set one. -/
theorem drwTwiceRestoresTheDisplay : Obligations.DrwTwiceRestoresTheDisplay := by
  unfold Obligations.DrwTwiceRestoresTheDisplay
  intro x y n s haccess
  obtain ⟨t, hexec, hpixel, -, -, -, -, hkept⟩ := drwXorsTheSpriteAndReportsCollision x y n s haccess
  refine ⟨t, hexec, fun hx => hkept.regs x (by simpa using hx), fun hy => hkept.regs y (by simpa using hy),
    fun hx hy => ?_⟩
  have hi : t.i = s.i := hkept.i rfl
  obtain ⟨u, hexec', hpixel', hone, hzero, -, -, -⟩ :=
    drwXorsTheSpriteAndReportsCollision x y n t (by rw [hi]; exact haccess)
  simp only [spriteCovers_congr (hkept.mem rfl) hi hkept.cfg hx hy] at hpixel' hone hzero
  refine ⟨u, hexec', fun px py => ?_, ?_⟩
  · rw [Bool.eq_iff_iff, hpixel', hpixel]
    tauto
  · have hset : ∀ px py, spriteCovers s x y n.val px py →
        (s.display.pixel px py = false ↔ t.display.pixel px py = true) := by
      intro px py hcover
      rw [hpixel, ← Bool.not_eq_true]
      tauto
    constructor
    · rintro ⟨px, py, hcover, hclear⟩
      exact hone ⟨px, py, hcover, (hset px py hcover).mp hclear⟩
    · intro hflag
      by_contra hnone
      have hflag0 : u.getV 0xF = 0 :=
        hzero fun ⟨px, py, hcover, ht⟩ => hnone ⟨px, py, hcover, (hset px py hcover).mpr ht⟩
      rw [hflag] at hflag0
      exact absurd hflag0 (by decide)

/-! ## The flag instructions (R22 of 10_state.md) -/

/-- A flag written last leaves VF at 0x00 or 0x01, whatever it held. -/
theorem State.setFlag_next_getV_le_one (s : State) (f : Bool) : ((s.setFlag f).next.getV 0xF).toNat ≤ 1 := by
  simpa using flagByte_le_one f

/-- Settles O20: the flag is the last register written, so VF holds a flag byte. -/
theorem flagInstructionsLeaveZeroOrOne : Obligations.FlagInstructionsLeaveZeroOrOne := by
  unfold Obligations.FlagInstructionsLeaveZeroOrOne
  intro i s t hflag hexec haccess
  cases i
  case addVxVy | sub | shr | subn | shl | addIVx =>
    obtain rfl := Host.Outcome.next.inj hexec
    exact State.setFlag_next_getV_le_one _ _
  case drw x y n =>
    obtain rfl := Host.Outcome.next.inj ((exec_drw_of_ok x y haccess).symm.trans hexec)
    exact State.setFlag_next_getV_le_one _ _
  all_goals cases hflag

end Sys2Proof.Machine
end

section
namespace Sys2Proof.Machine

open Sys2Proof.Claims

/-! ## Subroutines (R140, R141, R143 of 41_control.md) -/

/-- Settles O27: RET on an empty stack is a stack error, which reports or faults by `STACK_POLICY`. -/
theorem retOnEmptyStackFollowsThePolicy : Obligations.RetOnEmptyStackFollowsThePolicy := by
  unfold Obligations.RetOnEmptyStackFollowsThePolicy
  intro s hsp
  rw [exec_ret_of_sp_eq_zero hsp]
  refine ⟨fun hpolicy => ?_, fun hpolicy => ?_⟩
  · rw [State.stackError_of_report _ _ hpolicy]
    exact ⟨_, rfl, rfl, rfl, ((Kept.refl _ s).emit rfl _).next⟩
  · rw [State.stackError_of_fault _ _ hpolicy]
    rfl

/-- Settles O29: CALL on a full stack is a stack error, which reports or faults by `STACK_POLICY`. -/
theorem callOnFullStackFollowsThePolicy : Obligations.CallOnFullStackFollowsThePolicy := by
  unfold Obligations.CallOnFullStackFollowsThePolicy
  intro nnn s hsp
  rw [exec_call_of_sp_eq_full nnn hsp]
  refine ⟨fun hpolicy => ?_, fun hpolicy => ?_⟩
  · rw [State.stackError_of_report _ _ hpolicy]
    exact ⟨_, rfl, rfl, rfl, ((Kept.refl _ s).emit rfl _).next⟩
  · rw [State.stackError_of_fault _ _ hpolicy]
    rfl

/-- Settles O28: CALL on a stack that is not full is a push of PC and then a new PC. -/
theorem callPushesItsOwnAddress : Obligations.CallPushesItsOwnAddress := by
  unfold Obligations.CallPushesItsOwnAddress
  intro nnn s h
  refine ⟨_, exec_call_of_sp_ne_full nnn h, rfl, ?_, fun j hj => ?_, toNat_addrWord nnn,
    ((Kept.refl _ s).push rfl _ h).setPc _⟩
  · simp
  · simp [Ne.symm hj]

/-- Settles O30: the RET pops the address that the CALL pushed, and SP is counted up and down again. -/
theorem callThenRetComesBack : Obligations.CallThenRetComesBack := by
  unfold Obligations.CallThenRetComesBack
  intro nnn s h
  have hsp : ((s.push s.pc h).setPc (addrWord nnn)).sp.val ≠ 0 := Nat.succ_ne_zero s.sp.val
  refine ⟨_, _, exec_call_of_sp_ne_full nnn h, exec_ret_of_sp_ne_zero hsp, ?_, rfl,
    ((((Kept.refl _ s).push rfl _ h).setPc _).pop rfl hsp).setPc _⟩
  rw [State.setPc_pc, State.stackTop, State.setPc_stackAt, State.stackAt_push]
  simp

/-! ## Accesses outside memory (R63 of 20_memory.md) -/

/-- Settles O25: the four instructions that access memory check their bytes first, and the check fails. -/
theorem accessAboveMemoryFaults : Obligations.AccessAboveMemoryFaults := by
  unfold Obligations.AccessAboveMemoryFaults
  intro i s hne hout
  refine ⟨s.firstOutside, s.toNat_firstOutside, ?_⟩
  have hbad : s.accessOk (dataBytes i) = false := by
    rw [← Bool.not_eq_true, State.accessOk_iff]
    omega
  cases i
  case drw | ldBVx | ldMemVx | ldVxMem => exact congrArg Host.Outcome.next (State.withAccess_fault s _ _ hbad)
  all_goals exact absurd rfl hne

/-! ## Stores and loads (R213 to R215 of 43_index_memory.md) -/

/-- What a write of bytes inside the address space does: the bytes, every other address, the canonical form. -/
theorem Memory.writeBytes_spec (l : List Byte) (m : Memory) (a : Nat) (hl : a + l.length ≤ 4096) (h : m.wf = true) :
    (∀ k (hk : k < l.length), (m.writeBytes a l).read (a + k) = l[k]) ∧
      (∀ c, c < a ∨ a + l.length ≤ c → (m.writeBytes a l).read c = m.read c) ∧ (m.writeBytes a l).wf = true := by
  refine ⟨fun k hk => ?_, fun c hc => Memory.read_writeBytes_outside l m a c hl h hc,
    Memory.wf_writeBytes l m a hl h⟩
  rw [Memory.read_writeBytes l m a _ hl h, dif_pos ⟨Nat.le_add_right a k, by omega⟩]
  simp

/-- LD B where its bytes exist. -/
theorem exec_ldBVx_of_ok (x : Reg) {s : State} (h : s.accessOk 3 = true) :
    exec (.ldBVx x) s = .next (s.setMem (s.mem.writeBytes (s.ea 0) (decimalDigits (s.getV x)))).next :=
  congrArg Host.Outcome.next (State.withAccess_ok s _ _ h)

/-- LD [I], Vx where its bytes exist. -/
theorem exec_ldMemVx_of_ok (x : Reg) {s : State} (h : s.accessOk (x.val + 1) = true) :
    exec (.ldMemVx x) s = .next ((s.setMem (s.mem.writeBytes (s.ea 0) (s.regsUpTo x))).advanceI x).next :=
  congrArg Host.Outcome.next (State.withAccess_ok s _ _ h)

/-- LD Vx, [I] where its bytes exist. -/
theorem exec_ldVxMem_of_ok (x : Reg) {s : State} (h : s.accessOk (x.val + 1) = true) :
    exec (.ldVxMem x) s = .next ((s.loadRegs x).advanceI x).next :=
  congrArg Host.Outcome.next (State.withAccess_ok s _ _ h)

theorem toNat_natByte_of_lt {n : Nat} (h : n < 256) : (natByte n).toNat = n := by
  rw [toNat_natByte, Nat.mod_eq_of_lt h]

/-- Settles O44: the three bytes at I are written with the digits, each below 256. -/
theorem decimalStore : Obligations.DecimalStore := by
  unfold Obligations.DecimalStore
  intro x s hwf hi
  have hok : s.accessOk 3 = true := (s.accessOk_iff 3).mpr (.inr hi)
  obtain ⟨hread, houtside, hwf'⟩ :=
    Memory.writeBytes_spec (decimalDigits (s.getV x)) s.mem (s.ea 0) (State.ea_add_le hok) hwf
  have hV := (s.getV x).isLt
  refine ⟨_, exec_ldBVx_of_ok x hok, ?_, ?_, ?_, houtside, hwf', rfl, ((Kept.refl _ s).setMem rfl _).next⟩
  · exact (congrArg BitVec.toNat (hread 0 (show 0 < 3 by decide))).trans (toNat_natByte_of_lt (by omega))
  · exact (congrArg BitVec.toNat (hread 1 (show 1 < 3 by decide))).trans (toNat_natByte_of_lt (by omega))
  · exact (congrArg BitVec.toNat (hread 2 (show 2 < 3 by decide))).trans (toNat_natByte_of_lt (by omega))

/-- What becomes of I after a checked store or load, by `LOADSTORE_INCREMENTS_I` (D16). -/
theorem State.advanceI_i (s : State) (x : Reg) (h : s.i.toNat + x.val ≤ 0xFFF) :
    (s.cfg.loadStoreIncrementsI = false → (s.advanceI x).i = s.i) ∧
      (s.cfg.loadStoreIncrementsI = true → (s.advanceI x).i.toNat = s.i.toNat + x.val + 1) := by
  rw [State.advanceI_eq]
  refine ⟨fun hcfg => ?_, fun hcfg => ?_⟩
  · simp [hcfg]
  · simp only [hcfg, if_true, State.setI_i, BitVec.toNat_ofNat]
    omega

@[simp] theorem State.advanceI_mem (s : State) (x : Reg) : (s.advanceI x).mem = s.mem := by simp [State.advanceI_eq]

@[simp] theorem State.advanceI_getV (s : State) (x r : Reg) : (s.advanceI x).getV r = s.getV r := by
  simp [State.advanceI_eq]

/-- Settles O45: the x + 1 bytes at I are written with the registers up to x, and then I is advanced. -/
theorem registerStore : Obligations.RegisterStore := by
  unfold Obligations.RegisterStore
  intro x s hwf hi
  have hok : s.accessOk (x.val + 1) = true := (s.accessOk_iff _).mpr (.inr hi)
  have hlen := s.length_regsUpTo x
  obtain ⟨hread, houtside, hwf'⟩ :=
    Memory.writeBytes_spec (s.regsUpTo x) s.mem (s.ea 0) (by rw [hlen]; exact State.ea_add_le hok) hwf
  obtain ⟨hkeepI, hnewI⟩ := (s.setMem (s.mem.writeBytes (s.ea 0) (s.regsUpTo x))).advanceI_i x hi
  rw [hlen] at houtside
  refine ⟨_, exec_ldMemVx_of_ok x hok, fun k hk => ?_, fun b hb => ?_, ?_, hkeepI, hnewI, ?_,
    (((Kept.refl _ s).setMem rfl _).advanceI (fun _ => rfl) x).next⟩
  · have hk' : k.val < (s.regsUpTo x).length := by rw [hlen]; exact Nat.lt_succ_of_le hk
    simp only [State.next_eq, State.setPc_mem, State.advanceI_mem, State.setMem_mem]
    rw [hread k.val hk', State.getElem_regsUpTo s x k.val k.isLt]
  · simpa using houtside b hb
  · simpa using hwf'
  · simp

/-- Settles O46: the registers up to x are read from the bytes at I, and then I is advanced. -/
theorem registerLoad : Obligations.RegisterLoad := by
  unfold Obligations.RegisterLoad
  intro x s hi
  have hok : s.accessOk (x.val + 1) = true := (s.accessOk_iff _).mpr (.inr hi)
  obtain ⟨hkeepI, hnewI⟩ := (s.loadRegs x).advanceI_i x (by rw [State.loadRegs_i]; exact hi)
  rw [State.loadRegs_cfg, State.loadRegs_i] at hkeepI hnewI
  refine ⟨_, exec_ldVxMem_of_ok x hok, fun k hk => ?_, fun k hk => ?_, hkeepI, hnewI, ?_,
    ((kept_loadRegs s (by simp)).advanceI (fun _ => rfl) x).next⟩
  · simp [hk, State.ea]
  · simp [hk]
  · simp

/-- Settles O47: the load reads, from the first I, the bytes that the store wrote there. -/
theorem storeThenLoadRoundTrips : Obligations.StoreThenLoadRoundTrips := by
  unfold Obligations.StoreThenLoadRoundTrips
  intro x s hwf hi
  obtain ⟨t, hstore, hwritten, -, -, -, -, -, hkeptT⟩ := registerStore x s hwf hi
  obtain ⟨u, hload, hread, habove, -, -, -, hkeptU⟩ := registerLoad x (t.setI s.i) hi
  refine ⟨t, u, hstore, hload, fun r => ?_, hkeptU.mem rfl⟩
  rcases le_or_gt r x with hr | hr
  · exact (hread r hr).trans (hwritten r hr)
  · exact (habove r hr).trans (hkeptT.regs r (by simp))

/-- Settles O48: the word fetched is that of two of the bytes stored, in the order of their addresses. -/
theorem storedBytesAreFetched : Obligations.StoredBytesAreFetched := by
  unfold Obligations.StoredBytesAreFetched
  intro x k s t u hwf hi hk hexec hmem hpc
  obtain ⟨t', hexec', hwritten, -⟩ := registerStore x s hwf hi
  obtain rfl := Host.Outcome.next.inj (hexec'.symm.trans hexec)
  have hsucc : (k + 1 : Reg).val = k.val + 1 := Fin.val_add_one_of_lt (lt_of_lt_of_le hk (Fin.le_last x))
  have hlt : k.val < x.val := hk
  refine ⟨_, u.fetch_eq_some (by omega), ?_⟩
  have hhigh : u.mem.read u.pc.toNat = s.getV k := by
    rw [hmem, hpc]; exact hwritten k hk.le
  have hlow : u.mem.read (u.pc.toNat + 1) = s.getV (k + 1) := by
    rw [hmem, hpc, Nat.add_assoc, ← hsucc]; exact hwritten (k + 1) (Fin.le_def.mpr (by omega))
  rw [Memory.wordAt, toNat_wordOfBytes, hhigh, hlow]

end Sys2Proof.Machine
end

section
namespace Sys2Proof.Machine

open Sys2Proof.Claims

/-! ## Key skips (R240, R241 of 44_keys_timers.md) -/

theorem exec_skp (x : Reg) (s : State) : exec (.skp x) s = .next (s.skipOnKey x true) := rfl

theorem exec_sknp (x : Reg) (s : State) : exec (.sknp x) s = .next (s.skipOnKey x false) := rfl

/-- Settles O49: both forms are skips, on the key pressed and on the key released. -/
theorem keySkips : Obligations.KeySkips := by
  unfold Obligations.KeySkips
  intro x k s hk
  rw [exec_skp, exec_sknp, State.skipOnKey_of_key true hk, State.skipOnKey_of_key false hk]
  refine ⟨⟨_, rfl, s.skipIf_spec (fun h => ?_) (fun h => ?_)⟩, ⟨_, rfl, s.skipIf_spec (fun h => ?_) (fun h => ?_)⟩⟩
  all_goals simp [h]

/-- Settles O50: where V[x] names no key both forms raise KEY_RANGE with V[x], widened. -/
theorem noSuchKeyFaults : Obligations.NoSuchKeyFaults := by
  unfold Obligations.NoSuchKeyFaults
  intro x s h
  rw [exec_skp, exec_sknp, State.skipOnKey_of_noKey true h, State.skipOnKey_of_noKey false h]
  exact ⟨byteWord (s.getV x), toNat_byteWord _, rfl, rfl⟩

/-! ## The wait of FX0A (R245, R246, R286) -/

/-- The end of a wait writes V[x], W, PC and, under `per_step`, the timers. -/
theorem State.completeWait_eq (s : State) (x : Reg) (k : Key) :
    s.completeWait x k =
      ((((s.setV x (natByte k.val)).setWait none).setPc (s.pc + 2)).setDt
        (if s.cfg.timerMode = .perStep then countDown s.dt else s.dt)).setSt
        (if s.cfg.timerMode = .perStep then countDown s.st else s.st) :=
  State.stepTick_eq _

/-- The press of a released key ends the wait. -/
theorem State.setKey_of_press {s : State} {x : Reg} {k : Key} (hwait : s.wait = some x) (hk : s.keyFlag k = false) :
    s.setKey k true = (s.setKeyFlag k true).completeWait x k := by
  simp [State.setKey, hwait, hk]

/-- Every other key event writes one key alone. -/
theorem State.setKey_of_noPress {s : State} {k : Key} {p : Bool}
    (h : s.wait = none ∨ p = false ∨ s.keyFlag k = true) : s.setKey k p = s.setKeyFlag k p := by
  unfold State.setKey
  split
  · next hwait =>
    rcases h with hnone | rfl | hk
    · simp [hwait] at hnone
    · simp
    · simp [hk]
  · rfl

/-- A key event either ends a wait or has one of the reasons not to. -/
theorem State.press_or_noPress (s : State) (k : Key) (p : Bool) :
    (∃ x, s.wait = some x ∧ p = true ∧ s.keyFlag k = false) ∨ (s.wait = none ∨ p = false ∨ s.keyFlag k = true) := by
  cases s.wait <;> cases p <;> cases s.keyFlag k <;> simp

theorem toNat_natByte_key (k : Key) : (natByte k.val).toNat = k.val := toNat_natByte_of_lt (by omega)

/-- Settles O53: FX0A writes W alone, and the press that follows finds W and ends the wait. -/
theorem waitBeginsAndAKeyPressCompletesIt : Obligations.WaitBeginsAndAKeyPressCompletesIt := by
  unfold Obligations.WaitBeginsAndAKeyPressCompletesIt
  intro x s
  refine ⟨s.setWait (some x), rfl, rfl, rfl, (Kept.refl _ s).setWait rfl _, fun k hk => ?_⟩
  refine ⟨(s.setWait (some x)).setKey k true, rfl, ?_⟩
  rw [State.setKey_of_press (s.setWait_wait (some x)) hk, State.completeWait_eq]
  refine ⟨?_, rfl, rfl, ?_⟩
  · simp [toNat_natByte_key]
  · simp

/-- What a key event changes beside its key, where it ends the wait of `x`: W, V[x], PC and the timers. -/
theorem State.setKey_press_spec {s : State} {x : Reg} {k : Key} (hwait : s.wait = some x) (hk : s.keyFlag k = false) :
    let t := s.setKey k true
    t.wait = none ∧ (t.getV x).toNat = k.val ∧ (∀ r, r ≠ x → t.getV r = s.getV r) ∧ t.pc = s.pc + 2 ∧
      (s.cfg.timerMode = .perStep → t.dt.toNat = s.dt.toNat - 1 ∧ t.st.toNat = s.st.toNat - 1) ∧
      (s.cfg.timerMode = .externalTick → t.dt = s.dt ∧ t.st = s.st) := by
  intro t
  have ht : t = (s.setKeyFlag k true).completeWait x k := State.setKey_of_press hwait hk
  rw [ht, State.completeWait_eq]
  refine ⟨rfl, ?_, fun r hr => ?_, rfl, fun hmode => ?_, fun hmode => ?_⟩
  · simp [toNat_natByte_key]
  · simp [Ne.symm hr]
  · simp [hmode, toNat_countDown]
  · simp [hmode]

/-- What every key event does, whether it ends a wait or not: it sets one key, and keeps the rest of the state. -/
theorem State.setKey_frame (s : State) (k : Key) (p : Bool) :
    let t := s.setKey k p
    (t.keyFlag k = p ∧ ∀ j, j ≠ k → t.keyFlag j = s.keyFlag j) ∧
      t.i = s.i ∧ t.sp = s.sp ∧ (∀ j, t.stackAt j = s.stackAt j) ∧ (∀ a, t.mem.read a = s.mem.read a) ∧
      t.fault = s.fault ∧ t.rp = s.rp ∧ t.display = s.display := by
  intro t
  have hkeys : (s.setKeyFlag k p).keyFlag k = p ∧ ∀ j, j ≠ k → (s.setKeyFlag k p).keyFlag j = s.keyFlag j :=
    ⟨by simp, fun j hj => by simp [Ne.symm hj]⟩
  rcases s.press_or_noPress k p with ⟨x, hwait, rfl, hk⟩ | hno
  · have ht : t = (s.setKeyFlag k true).completeWait x k := State.setKey_of_press hwait hk
    rw [ht, State.completeWait_eq]
    exact ⟨hkeys, rfl, rfl, fun _ => rfl, fun _ => rfl, rfl, rfl, rfl⟩
  · have ht : t = s.setKeyFlag k p := State.setKey_of_noPress hno
    rw [ht]
    exact ⟨hkeys, rfl, rfl, fun _ => rfl, fun _ => rfl, rfl, rfl, rfl⟩

/-- Settles O54: the frame holds of every key event, and what else changes is that of a press or nothing. -/
theorem setKeySetsTheKeyAndMayEndTheWait : Obligations.SetKeySetsTheKeyAndMayEndTheWait := by
  unfold Obligations.SetKeySetsTheKeyAndMayEndTheWait
  intro k p s
  obtain ⟨⟨hkey, hothers⟩, hrest⟩ := s.setKey_frame k p
  refine ⟨s.setKey k p, rfl, hkey, hothers, fun x hwait hp hk => ?_, fun hno => ?_, hrest⟩
  · subst hp
    exact State.setKey_press_spec hwait hk
  · rw [State.setKey_of_noPress hno]
    exact ⟨rfl, rfl, fun _ => rfl, rfl, rfl⟩

theorem State.tick60_wait (s : State) : s.tick60.wait = s.wait := by
  unfold State.tick60; split <;> rfl

theorem State.loadProgram_wait (s : State) (b : List Byte) : (s.loadProgram b).2.wait = s.wait := by
  unfold State.loadProgram; split <;> rfl

/-- Settles O55: a waiting core steps to itself, a key event ends the wait only by a press, and no other event but reset
writes W. -/
theorem onlyAKeyPressOrResetEndsTheWait : Obligations.OnlyAKeyPressOrResetEndsTheWait := by
  unfold Obligations.OnlyAKeyPressOrResetEndsTheWait
  intro e s t x hwait he
  have hheld : s.held = true := s.held_eq_true.mpr (.inr (by simp [hwait]))
  cases e with
  | reset => obtain rfl := Host.Outcome.next.inj he; exact .inr ⟨rfl, .inl rfl⟩
  | step =>
    obtain rfl := Host.Outcome.next.inj ((step_held hheld).symm.trans he)
    exact .inl hwait
  | tick60 => obtain rfl := Host.Outcome.next.inj he; exact .inl (s.tick60_wait.trans hwait)
  | clearRedraw => obtain rfl := Host.Outcome.next.inj he; exact .inl hwait
  | loadProgram b => obtain rfl := Host.Outcome.next.inj he; exact .inl ((s.loadProgram_wait b).trans hwait)
  | setKey k p =>
    obtain rfl := Host.Outcome.next.inj he
    rcases s.press_or_noPress k p with ⟨y, hwait', rfl, hk⟩ | hno
    · obtain ⟨hended, -⟩ := State.setKey_press_spec hwait' hk
      exact .inr ⟨hended, .inr ⟨k, rfl, hk⟩⟩
    · rw [State.setKey_of_noPress hno]
      exact .inl hwait

/-! ## Loading a program (R288 of 60_exceptions.md) -/

theorem State.loadProgram_of_fits (s : State) {b : List Byte} (h : b.length ≤ 3584) :
    s.loadProgram b = (.ok, s.setMem (s.mem.writeBytes 0x200 b)) :=
  if_pos (decide_eq_true h)

theorem State.loadProgram_of_oversize (s : State) {b : List Byte} (h : 3584 < b.length) :
    s.loadProgram b = (.rejectOversize, s) :=
  if_neg fun hok => Nat.not_le_of_lt h (of_decide_eq_true hok)

/-- Settles O59: a program that fits is one write of its bytes at 0x200, which ends inside the address space. -/
theorem loadProgramCopiesOrRejects : Obligations.LoadProgramCopiesOrRejects := by
  unfold Obligations.LoadProgramCopiesOrRejects
  intro b s hwf
  refine ⟨s.loadProgram_of_oversize, fun hfits => ?_⟩
  obtain ⟨hread, houtside, hwf'⟩ := Memory.writeBytes_spec b s.mem 0x200 (by omega) hwf
  rw [s.loadProgram_of_fits hfits]
  exact ⟨rfl, hread, houtside, hwf', rfl, (Kept.refl _ s).setMem rfl _⟩

end Sys2Proof.Machine
end
